-- ==== Sys2Proof/Word.lean ====
section
/-! DEFINITION. The word types of the UART framing core (spec/00_scope.md rule R7; widths of rules R5, R29, R86). -/

namespace Sys2Proof

/-- A byte: 8 bits, unsigned (R7). -/
abbrev Byte := BitVec 8

/-- A 32-bit word: descriptor, timeout or response word (R7, R64). -/
abbrev Word := BitVec 32

/-- A 16-bit unsigned count: LEN, COUNT, MAXF and LOOKUP entries (R5, R92, D17). -/
abbrev Count := BitVec 16

/-- The width of ELAPSED: 33 bits, one more than a timeout has (R29). -/
abbrev Ticks := BitVec 33

end Sys2Proof
end

