-- ==== Sys2Proof/Config.lean ====
section
/-! DEFINITION. The Link Configuration CFG of spec/00_scope.md rule R5 (spec/10_state.md rules R20 to R28) and the
block's design constants (R6). A `Cfg` value is data; the state holds the latched one and the one on the
configuration inputs (log entry 2). -/

namespace Sys2Proof

/-- CFG.LENMODE: how a parameter count is found (R23). -/
inductive LenMode where
  /-- The caller declares the count. -/
  | declared
  /-- The count is CFG.LOOKUP of the command. -/
  | negotiated
  deriving DecidableEq, Repr

/-- CFG.CKWIN: the checksum window policy (R25, R181). This hardware's value is `hdrIncluded`. -/
inductive CkWin where
  /-- Policy (a): header, command and parameters. -/
  | hdrIncluded
  /-- Policy (b): command and parameters only. -/
  | hdrExcluded
  deriving DecidableEq, Repr

/-- CFG.RATE: RATE_W bits, opaque to the core (R28). RATE_W is itself an open parameter, so it stands in the value
(log entry 8). -/
structure Rate where
  /-- RATE_W. -/
  width : Nat
  /-- The rate, passed through to the transport. -/
  bits : BitVec width
  deriving DecidableEq, Repr

/-- The Link Configuration (R5, R20). -/
structure Cfg where
  /-- CFG.HDR, the header byte (R21). -/
  hdr : Byte
  /-- CFG.MAXF, the maximum frame size in bytes (R22). -/
  maxf : Count
  /-- CFG.LENMODE (R23). -/
  lenMode : LenMode
  /-- CFG.LOOKUP, a table of 256 counts indexed by the command byte (R24). -/
  lookup : Vector Count 256
  /-- CFG.CKWIN (R25). -/
  ckWin : CkWin
  /-- CFG.DEFAULT_RTO in milliseconds (R26). -/
  defaultRto : Word
  /-- CFG.SYNC_STRICT (R27). -/
  syncStrict : Bool
  /-- CFG.RATE (R28). -/
  rate : Rate
  deriving DecidableEq, Repr

/-- FRAME_OVERHEAD: the header byte and the command byte (R6). -/
def Config.frameOverhead : Nat := 2

/-- CK_BYTES: the checksum, when present, is one byte (R6). -/
def Config.ckBytes : Nat := 1

/-- SYNC_MIN: the buffered-byte threshold of the strict synchronisation variant (R6, R132). -/
def Config.syncMin : Nat := 3

/-- CFG_EX_D of spec/95_test_vectors.md, the configuration `State.reset` has latched. CKWIN and DEFAULT_RTO are this
hardware's values (R25, R26).
DESIGN CHOICE (log entry 3, unsafe): the spec leaves HDR, MAXF, LENMODE, LOOKUP, SYNC_STRICT and RATE open. No
statement rests on these values. -/
def Config.atReset : Cfg :=
  { hdr := 0xAA, maxf := 10, lenMode := .declared
    lookup := ((Vector.replicate 256 (0 : Count)).set 1 2).set 2 3
    ckWin := .hdrIncluded, defaultRto := 1000, syncStrict := false
    rate := { width := 0, bits := 0 } }

end Sys2Proof
end

