-- ==== Sys2Proof/Syntax.lean ====
section
/-! DEFINITION. The commands of the host port: the command transaction (spec/30_encoding.md rule R84) and the seven
operations of the opcode table (R93), with exactly the operands R94 calls "any". -/

namespace Sys2Proof

/-- A command transaction, delivered whole in one Host step (R84). -/
structure Transaction where
  /-- The descriptor word (R86). -/
  desc : Word
  /-- The timeout word, present or absent (R89). -/
  tmo : Option Word
  /-- The payload bytes (R66). -/
  payload : List Byte
  deriving DecidableEq, Repr

/-- The operations of spec/opcode_table.json, one constructor per row (R93). -/
inductive Instr where
  /-- SEND / SEND.C: build one frame and emit it as one write (R110). -/
  | send (checksummed : Bool) (cmd : Byte) (params : List Byte)
  /-- RAWHC: emit header and command, start the raw checksum (R117). -/
  | rawhc (cmd : Byte)
  /-- RAWDAT: emit data bytes and fold them into the raw checksum (R119). -/
  | rawdat (data : List Byte)
  /-- RAWCK: emit the raw checksum byte (R122). -/
  | rawck
  /-- SYNC: scan the RX queue for the header byte, bounded by a timeout in milliseconds (R130). -/
  | sync (timeout : Word)
  /-- RECV / RECV.C: take one frame from the RX queue and validate it (R150). `len` is the declared count, `timeout`
  the explicit read timeout when T = 1. -/
  | recv (checksummed : Bool) (len : Count) (timeout : Option Word)
  /-- CKSUM: the XOR-fold of the bytes the host supplies (R182). -/
  | cksum (bytes : List Byte)
  deriving DecidableEq, Repr

end Sys2Proof
end

