-- ==== Sys2Proof/WellFormed.lean ====
section
/-! DEFINITION. Which commands the encoding can spell under a length mode (spec/30_encoding.md rules R84, R92, R98). -/

namespace Sys2Proof

/-- A payload holds 0 to 65535 bytes (R84, D35). -/
def payloadFits (l : List Byte) : Bool := decide (l.length ≤ 65535)

/-- A transaction the host port can carry (R84). -/
def Transaction.wf (t : Transaction) : Bool := payloadFits t.payload

/-- A command with an encoding that `Decode` accepts under the length mode: LEN is 16 bits (R92), and RECV has
LEN = 0 in NEGOTIATED mode (R98, R101). -/
def Instr.wf (mode : LenMode) : Instr → Bool
  | .send _ _ params => payloadFits params
  | .rawhc _ => true
  | .rawdat data => payloadFits data
  | .rawck => true
  | .sync _ => true
  | .recv _ len _ => decide (mode = .declared ∨ len = 0)
  | .cksum bytes => payloadFits bytes

end Sys2Proof
end

