-- ==== Sys2Proof/Decode.lean ====
section
/-! DEFINITION. The decoder of command transactions, total, with a named reason for every rejection
(spec/30_encoding.md rules R86 to R99), and the encoder written from the same table (R94, R102). -/

namespace Sys2Proof

/-! ### Descriptor fields (R86) -/

/-- OP = desc[31:28]. -/
def descOp (d : Word) : BitVec 4 := d.extractLsb' 28 4

/-- C = desc[27]. -/
def descC (d : Word) : Bool := d.getLsbD 27

/-- T = desc[26]. -/
def descT (d : Word) : Bool := d.getLsbD 26

/-- RES = desc[25:24]. -/
def descRes (d : Word) : BitVec 2 := d.extractLsb' 24 2

/-- CMD = desc[23:16]. -/
def descCmd (d : Word) : Byte := d.extractLsb' 16 8

/-- LEN = desc[15:0]. -/
def descLen (d : Word) : Count := d.extractLsb' 0 16

/-- The descriptor with the given fields and RES = 0 (R86). -/
def mkDesc (op : BitVec 4) (c t : Bool) (cmd : Byte) (len : Count) : Word :=
  op.setWidth 32 <<< 28 ||| (BitVec.ofBool c).setWidth 32 <<< 27 ||| (BitVec.ofBool t).setWidth 32 <<< 26 |||
    cmd.setWidth 32 <<< 16 ||| len.setWidth 32

/-! ### The opcode table (R93, R94) -/

/-- The operation a row of R94 names. -/
inductive OpName where
  | send | rawhc | rawdat | rawck | sync | recv | cksum
  deriving DecidableEq, Repr

/-- The payload column of R94. -/
inductive PayloadRule where
  /-- "= LEN": exactly LEN bytes. -/
  | lenBytes
  /-- "[ ]": no bytes. -/
  | empty
  deriving DecidableEq, Repr

/-- One row of R94. -/
structure OpRow where
  op : OpName
  pattern : Word
  mask : Word
  payload : PayloadRule
  deriving DecidableEq, Repr

/-- The table of R94. -/
def opTable : List OpRow :=
  [ ⟨.send,   0x10000000, 0xF7000000, .lenBytes⟩,
    ⟨.rawhc,  0x20000000, 0xFF00FFFF, .empty⟩,
    ⟨.rawdat, 0x30000000, 0xFFFF0000, .lenBytes⟩,
    ⟨.rawck,  0x40000000, 0xFFFFFFFF, .empty⟩,
    ⟨.sync,   0x54000000, 0xFFFFFFFF, .empty⟩,
    ⟨.recv,   0x60000000, 0xF3FF0000, .empty⟩,
    ⟨.cksum,  0x70000000, 0xFFFF0000, .lenBytes⟩ ]

/-- A descriptor selects a row iff `(desc & mask) == match` (R94). -/
def OpRow.selects (r : OpRow) (d : Word) : Bool := d &&& r.mask == r.pattern

/-- The row of R94 a descriptor selects, or none (R98). -/
def selectRow (d : Word) : Option OpRow := opTable.find? (·.selects d)

/-- OP is one of the assigned opcodes 1 to 7 (R87). -/
def opAssigned (op : BitVec 4) : Bool := decide (1 ≤ op.toNat ∧ op.toNat ≤ 7)

/-- The opcode of an operation (R93). -/
def opCode : OpName → BitVec 4
  | .send => 1
  | .rawhc => 2
  | .rawdat => 3
  | .rawck => 4
  | .sync => 5
  | .recv => 6
  | .cksum => 7

/-! ### Decode (R98) -/

/-- Why a transaction is ILLEGAL (the cases of R99). Every one has the same verdict, IllegalCommand (R98). -/
inductive DecodeError where
  /-- OP is 0x0 or 0x8 to 0xF (R87). -/
  | unassignedOp
  /-- RES ≠ 0 (R90). -/
  | reservedBits
  /-- A field the row fixes holds another value. -/
  | fixedField
  /-- The timeout word's presence disagrees with T (R89). -/
  | timeoutPresence
  /-- The payload length disagrees with the row. -/
  | payloadLength
  /-- RECV has LEN ≠ 0 in NEGOTIATED mode (D31). -/
  | recvLenNegotiated
  deriving DecidableEq, Repr

/-- Why no row matches a descriptor. -/
def noRowReason (d : Word) : DecodeError :=
  if opAssigned (descOp d) = false then .unassignedOp
  else if descRes d ≠ 0 then .reservedBits
  else .fixedField

/-- The payload check of R98 for a row. -/
def payloadOk (r : OpRow) (t : Transaction) : Bool :=
  match r.payload with
  | .lenBytes => t.payload.length == (descLen t.desc).toNat
  | .empty => t.payload.isEmpty

/-- The operands of the selected operation, from the fields R94 calls "any". -/
def buildInstr (op : OpName) (t : Transaction) : Except DecodeError Instr :=
  match op with
  | .send => .ok (.send (descC t.desc) (descCmd t.desc) t.payload)
  | .rawhc => .ok (.rawhc (descCmd t.desc))
  | .rawdat => .ok (.rawdat t.payload)
  | .rawck => .ok .rawck
  | .sync =>
    match t.tmo with
    | some timeout => .ok (.sync timeout)
    | none => .error .timeoutPresence
  | .recv => .ok (.recv (descC t.desc) (descLen t.desc) t.tmo)
  | .cksum => .ok (.cksum t.payload)

/-- Decode of R98, its checks in the rule's order. Only RECV's LEN check reads the configuration (R101). -/
def decode (mode : LenMode) (t : Transaction) : Except DecodeError Instr :=
  match selectRow t.desc with
  | none => .error (noRowReason t.desc)
  | some row =>
    if t.tmo.isSome ≠ descT t.desc then .error .timeoutPresence
    else if payloadOk row t = false then .error .payloadLength
    else if row.op = .recv ∧ mode = .negotiated ∧ descLen t.desc ≠ 0 then .error .recvLenNegotiated
    else buildInstr row.op t

/-! ### Encode (R94, R102) -/

/-- LEN of a byte list (R102: "The assembler derives LEN from the list length"). -/
def lenOf (l : List Byte) : Count := BitVec.ofNat 16 l.length

/-- The transaction that spells a command (R102). -/
def encode : Instr → Transaction
  | .send c cmd params => ⟨mkDesc (opCode .send) c false cmd (lenOf params), none, params⟩
  | .rawhc cmd => ⟨mkDesc (opCode .rawhc) false false cmd 0, none, []⟩
  | .rawdat data => ⟨mkDesc (opCode .rawdat) false false 0 (lenOf data), none, data⟩
  | .rawck => ⟨mkDesc (opCode .rawck) false false 0 0, none, []⟩
  | .sync timeout => ⟨mkDesc (opCode .sync) false true 0 0, some timeout, []⟩
  | .recv c len timeout => ⟨mkDesc (opCode .recv) c timeout.isSome 0 len, timeout, []⟩
  | .cksum bytes => ⟨mkDesc (opCode .cksum) false false 0 (lenOf bytes), none, bytes⟩

/-! ### The transaction a table word stands for (log entries 11 and 12) -/

/-- `n` bytes of a number, the least significant first. -/
def bytesOfNat : Nat → Nat → List Byte
  | 0, _ => []
  | n + 1, v => BitVec.ofNat 8 v :: bytesOfNat n (v / 256)

/-- Does the operation with this opcode carry LEN payload bytes (R94, payload column "= LEN")? -/
def carriesPayload (op : BitVec 4) : Bool := op == 1 || op == 3 || op == 7

/-- The transaction whose bits are `w`, numbered as spec/opcode_table.json numbers them: the descriptor word, then the
timeout word if T = 1, then the payload bytes the descriptor asks for (R84, R101). Bits at and above `nbits` are 0.
DESIGN CHOICE (log entry 12, safe): the parts cross the port whole (R66) and have no order among bits of one number; this
one is only the host's numbering. -/
def tableTransaction (nbits w : Nat) : Transaction :=
  let v := w % 2 ^ nbits
  let d := BitVec.ofNat 32 v
  let rest := v / 2 ^ 32
  let n := if carriesPayload (descOp d) then (descLen d).toNat else 0
  if descT d then ⟨d, some (BitVec.ofNat 32 rest), bytesOfNat n (rest / 2 ^ 32)⟩
  else ⟨d, none, bytesOfNat n rest⟩

/-- The instruction the decoder reads from a table word, in DECLARED mode, where RECV's LEN is an operand (R101). -/
def decodeTableWord (nbits w : Nat) : Option Instr :=
  (decode .declared (tableTransaction nbits w)).toOption

end Sys2Proof
end

