-- ==== Sys2Proof/Machine/State.lean ====
section
/-! DEFINITION. The state of the block and of its environment (spec/10_state.md rules R29 to R45), the reasons a meaning
can stop, and the state after reset. -/

namespace Sys2Proof.Machine

/-- The status codes 0 to 7 of spec/60_exceptions.md rule R200. Codes 8 to 15 have no name (R100). -/
inductive Status where
  | ok
  | noHeaderFound
  | insufficientData
  | parameterCountMismatch
  | frameTooLarge
  | incomplete
  | checksumMismatch
  | illegalCommand
  deriving DecidableEq, Repr

/-- PHASE, the core's control state (R33). -/
inductive Phase where
  | idle
  | sendWr | rawhcWr | rawdatWr | rawckWr
  | syncScan
  | recvHdr | recvCmd | recvPar | recvCks
  | resp
  deriving DecidableEq, Repr

/-- OPL, the operation latch (R34). -/
structure Opl where
  op : BitVec 4
  c : Bool
  t : Bool
  cmd : Byte
  len : Count
  timeout : Option Word
  payload : List Byte
  deriving DecidableEq, Repr

/-- A response: the response word and its payload (R95). -/
structure Response where
  word : Word
  payload : List Byte
  deriving DecidableEq, Repr

/-- One atomic step of one agent (R35, R210, D1). The schedule of a state is a list of these: executions interleave the
agents' steps, and the list says which agent moves next (log entry 1). -/
inductive Event where
  /-- The core takes one step of the wait it is in (R35). -/
  | core
  /-- The Host offers a command transaction: the acceptance step (R203). -/
  | offer (t : Transaction)
  /-- The Host takes the held response (R206). -/
  | hostTake
  /-- A byte arrives at the RX queue (R55). `lose` is the environment's choice to drop it when the queue is full. -/
  | rxArrive (b : Byte) (lose : Bool)
  /-- The millisecond pulse (R29). -/
  | tick
  /-- The TX transport accepts the pending write (R61). -/
  | txAccept
  /-- The configuration inputs change (R20, R231). -/
  | setInputs (c : Cfg)
  /-- The reset input is asserted (R230). -/
  | assertReset
  /-- The reset input is released (R231). -/
  | releaseReset
  deriving DecidableEq, Repr

/-- The machine: the core's registers, then the environment it reads and writes. -/
structure State where
  /-- CFG, latched at the release of reset (R20, R231). -/
  cfg : Cfg
  /-- PHASE (R33). -/
  phase : Phase
  /-- ELAPSED, the saturating counter of Ticks since the current wait began (R29). -/
  elapsed : Ticks
  /-- RTO, the current read timeout in milliseconds (R30). -/
  rto : Word
  /-- TXACC, the raw-mode transmit checksum accumulator (R31). -/
  txacc : Byte
  /-- DISC, the saturating count of bytes the current SYNC discarded (R32). -/
  disc : Count
  /-- OPL (R34). -/
  opl : Opl
  /-- RCMD, the command byte of the current RECV (R36). -/
  rcmd : Byte
  /-- PCNT, the parameter count of the current RECV (R37). -/
  pcnt : Count
  /-- PBUF, the parameter buffer (R38). -/
  pbuf : List Byte
  /-- RDN, the number of bytes the current read asks for (R39). -/
  rdn : Count
  /-- RDBUF, the bytes the current read has taken (R39). -/
  rdbuf : List Byte
  /-- TXB, the write offered to the TX transport (R40). -/
  txb : List Byte
  /-- RSP, the held response (R41). -/
  rsp : Option Response
  /-- rxq, the transport's receive buffer, front first (R43, R51). -/
  rxq : List Byte
  /-- txlog, the writes the TX transport has accepted, oldest first (R43). -/
  txlog : List (List Byte)
  /-- RXCAP, the capacity of the RX queue, `none` for unbounded (R5, D28). -/
  rxcap : Option Nat
  /-- rst, the reset input (R43, R230). -/
  rst : Bool
  /-- The configuration inputs (R20, R231). -/
  cfgIn : Cfg
  /-- What the configure output has presented, oldest first (R234). The model's record of an output (log entry 7). -/
  configOut : List Rate
  /-- The responses the Host has taken, oldest first (R206). The model's record of an output (log entry 7). -/
  hostlog : List Response
  /-- The agents' next steps, in order (log entry 1). Empty: the core moves. -/
  sched : List Event
  deriving DecidableEq, Repr

/-- Why a meaning can stop the machine. The spec gives the block no fault: every failure is an error response (R200,
R211). -/
inductive Fault where
  /-- A meaning was asked to run in a phase that is neither IDLE nor one of its own operation. Raised by every meaning
  of Framer.lean, Synchronizer.lean, Decoder.lean and Checksum.lean; `step` never asks for it. Safe: "In any phase other
  than IDLE, no command can be offered: the host port is not ready" (R203; log entry 9). -/
  | hostPortNotReady
  deriving DecidableEq, Repr

/-- Why the model gives an instruction no meaning. -/
inductive Refusal where
  /-- The instruction has no meaning yet; raised only by an arm of `exec`. Safe. No arm raises it. -/
  | notModelled (mnemonic : String)
  deriving DecidableEq, Repr

/-- The outcome of a step of this machine. -/
abbrev Result := Host.Outcome State Fault Refusal

/-- OPL after reset. The spec: "unspecified (never read outside an operation)" (R45).
DESIGN CHOICE (log entry 4, unsafe): all fields zero, no timeout, no payload. -/
def Opl.reset : Opl :=
  { op := 0, c := false, t := false, cmd := 0, len := 0, timeout := none, payload := [] }

/-- The state right after a reset that latched the configuration `c` (R45, R231, R234), with the environment as it
stands before any of its steps. PBUF and OPL are the model's choice (log entry 4); so are the environment's initial
contents (log entry 6). -/
def State.resetWith (c : Cfg) : State :=
  { cfg := c, phase := .idle, elapsed := 0, rto := c.defaultRto, txacc := 0, disc := 0
    opl := Opl.reset, rcmd := 0, pcnt := 0, pbuf := [], rdn := 0, rdbuf := [], txb := [], rsp := none
    rxq := [], txlog := [], rxcap := none, rst := false, cfgIn := c, configOut := [c.rate], hostlog := []
    sched := [] }

/-- The machine right after reset, for the configuration of log entry 3. -/
def State.reset : State := State.resetWith Config.atReset

end Sys2Proof.Machine
end

