-- ==== Sys2Proof/Machine/Flags.lean ====
section
/-! DEFINITION. The status field of the response word, "the block's only flag-like output" (spec/10_state.md rule R42):
the codes of spec/60_exceptions.md rule R200 and the response word of spec/30_encoding.md rule R96. There is no
condition-code or flag register to compute. -/

namespace Sys2Proof.Machine

/-- The numeric code of a status (R200). -/
def Status.code : Status → BitVec 4
  | .ok => 0
  | .noHeaderFound => 1
  | .insufficientData => 2
  | .parameterCountMismatch => 3
  | .frameTooLarge => 4
  | .incomplete => 5
  | .checksumMismatch => 6
  | .illegalCommand => 7

/-- The status a host reads from a code. Codes 8 to 15 have none: "A model should give it no meaning and refuse it"
(R100). -/
def Status.ofCode (code : BitVec 4) : Option Status :=
  match code.toNat with
  | 0 => some .ok
  | 1 => some .noHeaderFound
  | 2 => some .insufficientData
  | 3 => some .parameterCountMismatch
  | 4 => some .frameTooLarge
  | 5 => some .incomplete
  | 6 => some .checksumMismatch
  | 7 => some .illegalCommand
  | _ => none

/-- `rword = STATUS<<28 | OPX<<24 | RESULT<<16 | COUNT` (R96). -/
def responseWord (status : Status) (opx : BitVec 4) (result : Byte) (count : Count) : Word :=
  status.code.setWidth 32 <<< 28 ||| opx.setWidth 32 <<< 24 ||| result.setWidth 32 <<< 16 ||| count.setWidth 32

/-- STATUS = rword[31:28] (R96). -/
def Response.statusField (r : Response) : BitVec 4 := r.word.extractLsb' 28 4

/-- OPX = rword[27:24] (R96). -/
def Response.opxField (r : Response) : BitVec 4 := r.word.extractLsb' 24 4

/-- RESULT = rword[23:16] (R96). -/
def Response.resultField (r : Response) : Byte := r.word.extractLsb' 16 8

/-- COUNT = rword[15:0] (R96). -/
def Response.countField (r : Response) : Count := r.word.extractLsb' 0 16

end Sys2Proof.Machine
end

