-- ==== Sys2Proof/Machine/Ops.lean ====
section
/-! DEFINITION. The named operations the meanings share: the checksum functions (spec/43_checksum.md), the RX and TX
primitives (spec/20_memory.md), ending an operation with a response, raising an error and taking a response
(spec/60_exceptions.md rules R204 to R206). -/

namespace Sys2Proof.Machine

/-! ### Checksum functions -/

/-- Fold, the XOR-fold of a byte list; Fold([ ]) = 0x00 (R180; log entry 10). -/
def fold : List Byte → Byte
  | [] => 0
  | b :: l => b ^^^ fold l

/-- Window(h, c, p), the byte range the frame checksum covers (R181). -/
def window (cfg : Cfg) (cmd : Byte) (params : List Byte) : List Byte :=
  (match cfg.ckWin with
    | .hdrIncluded => [cfg.hdr]
    | .hdrExcluded => []) ++ [cmd] ++ params

/-- `Fold(Window(CFG.HDR, cmd, params))`, the checksum byte of a frame (R80, R188). -/
def frameChecksum (cfg : Cfg) (cmd : Byte) (params : List Byte) : Byte := fold (window cfg cmd params)

/-! ### Configuration reads -/

/-- CFG.LOOKUP(cmd) (R24). -/
def lookupCount (cfg : Cfg) (cmd : Byte) : Count := cfg.lookup[cmd.toNat]'(cmd.isLt)

/-- The length `2 + N + c` of a frame with N parameters and checksum flag c, an exact natural (R81, D17). -/
def frameLength (n : Nat) (checksummed : Bool) : Nat :=
  Config.frameOverhead + n + (if checksummed then Config.ckBytes else 0)

/-- A frame is admissible iff `2 + n + c ≤ CFG.MAXF` (R22). -/
def admissible (cfg : Cfg) (n : Nat) (checksummed : Bool) : Bool := decide (frameLength n checksummed ≤ cfg.maxf.toNat)

/-- The frame on the wire (R80). -/
def frameBytes (cfg : Cfg) (checksummed : Bool) (cmd : Byte) (params : List Byte) : List Byte :=
  [cfg.hdr, cmd] ++ params ++ (if checksummed then [frameChecksum cfg cmd params] else [])

/-! ### Counters -/

/-- ELAPSED after one Tick: `min(ELAPSED + 1, 2^33 - 1)` (R29). -/
def tickCount (e : Ticks) : Ticks := if e = BitVec.allOnes 33 then e else e + 1

/-- DISC after one discard: `min(DISC + 1, 0xFFFF)` (R32, R130). -/
def discardCount (d : Count) : Count := if d = BitVec.allOnes 16 then d else d + 1

/-- A wait with limit T has expired iff `ELAPSED > zext_33(T)` (R29). -/
def expired (limit : Word) (elapsed : Ticks) : Bool := decide (limit.setWidth 33 < elapsed)

/-! ### RX queue -/

/-- RxAvail() (R52). -/
def State.rxAvail (s : State) : Nat := s.rxq.length

/-- RxPeek() (R53). -/
def State.rxPeek (s : State) : Option Byte := s.rxq.head?

/-- RxPop(): the head of a nonempty queue and the state without it (R54). On an empty queue it gives no byte and no state:
"No rule of this spec calls RxPop on an empty queue". -/
def State.rxPop (s : State) : Option (Byte × State) :=
  match s.rxq with
  | [] => none
  | b :: l => some (b, { s with rxq := l })

/-! ### ReadBytes (R57) -/

/-- The start of a `ReadBytes(n, T)`: `RDN <- n ; RDBUF <- [ ] ; ELAPSED <- 0`. -/
def startRead (n : Count) (s : State) : State := { s with rdn := n, rdbuf := [], elapsed := 0 }

/-- What one iteration of the wait loop of R57 comes to. -/
inductive ReadResult where
  /-- The last byte was taken: `(RDBUF, true)`. -/
  | complete (bytes : List Byte) (s : State)
  /-- The read expired: `(RDBUF, false)`. -/
  | timedOut (s : State)
  /-- The wait goes on: a byte was taken and more are wanted, or the step only polled. -/
  | waiting (s : State)
  deriving DecidableEq, Repr

/-- One iteration of the wait loop of `ReadBytes(RDN, RTO)`: a present byte is taken before the expiry test (R57, R210). -/
def readIteration (s : State) : ReadResult :=
  match s.rxPop with
  | some (b, s') =>
    if (s.rdbuf ++ [b]).length = s.rdn.toNat then .complete (s.rdbuf ++ [b]) { s' with rdbuf := s.rdbuf ++ [b] }
    else .waiting { s' with rdbuf := s.rdbuf ++ [b] }
  | none => if expired s.rto s.elapsed then .timedOut s else .waiting s

/-! ### TX stream -/

/-- The offer of `TxWrite(bytes)`: TXB holds the write, the core waits in the given *_WR phase (R60). -/
def offerWrite (p : Phase) (bytes : List Byte) (s : State) : State := { s with phase := p, txb := bytes }

/-- The TX accept: one txlog entry, then TXB is empty (R60, R61). -/
def acceptWrite (s : State) : State := { s with txlog := s.txlog ++ [s.txb], txb := [] }

/-! ### Responses and errors -/

/-- `respond(S, r, n, pl)`: ends the current operation (R204). -/
def respond (status : Status) (result : Byte) (count : Count) (payload : List Byte) (s : State) : State :=
  { s with rsp := some ⟨responseWord status s.opl.op result count, payload⟩, txb := [], phase := .resp }

/-- `raise S` for an error status: `respond(S, 0x00, 0, [ ])` (R205). This is all that an error does on this block: it saves
no state and has no vector or mode (R211). -/
def raiseError (status : Status) (s : State) : State := respond status 0 0 [] s

/-- The Host takes the response: the block is IDLE again (R206). It is the only continuation after an error (R211). -/
def takeResponse (s : State) : State :=
  match s.rsp with
  | some r => { s with rsp := none, phase := .idle, hostlog := s.hostlog ++ [r] }
  | none => s

/-- RECV's `finish(S, r, n, pl)`: RTO is restored, then the response (R160). -/
def finishRecv (status : Status) (result : Byte) (count : Count) (payload : List Byte) (s : State) : State :=
  respond status result count payload { s with rto := s.cfg.defaultRto }

/-- RECV's `finish(S)` for an error status (R160, R205). -/
def failRecv (status : Status) (s : State) : State := finishRecv status 0 0 [] s

/-! ### Reset -/

/-- Every core register at its reset value; the environment, and the latched configuration, as they were (R45, R230,
R233). OPL and PBUF take the model's values (log entry 4); RTO takes the configuration still latched (log entry 15). -/
def coreReset (s : State) : State :=
  { s with
    phase := .idle, elapsed := 0, rto := s.cfg.defaultRto, txacc := 0, disc := 0, opl := Opl.reset, rcmd := 0
    pcnt := 0, pbuf := [], rdn := 0, rdbuf := [], txb := [], rsp := none }

/-- The assertion of rst (R230, R232). -/
def assertReset (s : State) : State := { coreReset s with rst := true }

/-- The release of rst: CFG is latched from the configuration inputs, RTO follows it, CFG.RATE is presented once, the
core is IDLE (R231, R234). -/
def releaseReset (s : State) : State :=
  { coreReset { s with cfg := s.cfgIn } with rst := false, configOut := s.configOut ++ [s.cfgIn.rate] }

end Sys2Proof.Machine
end

