-- ==== Sys2Proof/Machine/Operands.lean ====
section
/-! DEFINITION. Where an operation's operands come from: the operation latch OPL (spec/10_state.md rule R34,
spec/30_encoding.md rule R85) and the parameter count of a RECV (spec/42_decoder.md rule R155). -/

namespace Sys2Proof.Machine

/-- The latch of a transaction's fields; RES is not latched (R85). -/
def Opl.ofTransaction (t : Transaction) : Opl :=
  { op := descOp t.desc, c := descC t.desc, t := descT t.desc, cmd := descCmd t.desc, len := descLen t.desc
    timeout := t.tmo, payload := t.payload }

/-- Latch OPL at acceptance (R85, R203 step 1). -/
def latch (t : Transaction) (s : State) : State := { s with opl := Opl.ofTransaction t }

/-- The operation in progress, with its operands read back from OPL: none in IDLE and RESP (R33, R34). A SYNC_SCAN with no
latched timeout has none either; no run reaches one (log entry 17). -/
def State.current (s : State) : Option Instr :=
  match s.phase with
  | .idle | .resp => none
  | .sendWr => some (.send s.opl.c s.opl.cmd s.opl.payload)
  | .rawhcWr => some (.rawhc s.opl.cmd)
  | .rawdatWr => some (.rawdat s.opl.payload)
  | .rawckWr => some .rawck
  | .syncScan => s.opl.timeout.map .sync
  | .recvHdr | .recvCmd | .recvPar | .recvCks => some (.recv s.opl.c s.opl.len s.opl.timeout)

/-- A *_WR phase: the core waits for the TX transport (R33). -/
def Phase.isWrite : Phase → Bool
  | .sendWr | .rawhcWr | .rawdatWr | .rawckWr => true
  | .idle | .syncScan | .recvHdr | .recvCmd | .recvPar | .recvCks | .resp => false

/-- A phase of RECV (R33, R47). -/
def Phase.isRecv : Phase → Bool
  | .recvHdr | .recvCmd | .recvPar | .recvCks => true
  | .idle | .sendWr | .rawhcWr | .rawdatWr | .rawckWr | .syncScan | .resp => false

/-- A phase in which a core step is one iteration of a loop over the RX queue (R35). -/
def Phase.isRxWait : Phase → Bool
  | .syncScan | .recvHdr | .recvCmd | .recvPar | .recvCks => true
  | .idle | .sendWr | .rawhcWr | .rawdatWr | .rawckWr | .resp => false

/-- The parameter count a RECV finds: CFG.LOOKUP of the command in NEGOTIATED mode, the declared LEN in DECLARED mode
(R155). -/
def paramCount (cfg : Cfg) (cmd : Byte) (declared : Count) : Count :=
  match cfg.lenMode with
  | .negotiated => lookupCount cfg cmd
  | .declared => declared

end Sys2Proof.Machine
end

