-- ==== Sys2Proof/Machine/Checksum.lean ====
section
/-! DEFINITION. The Checksum Engine's host operation CKSUM (spec/43_checksum.md rules R182, R183). -/

namespace Sys2Proof.Machine

/-- CKSUM: the fold of the bytes it is given, in the acceptance step (R182). -/
def execCksum (bytes : List Byte) (s : State) : Result :=
  if s.phase = .idle then .next (respond .ok (fold bytes) (lenOf bytes) [] s)
  else .fault .hostPortNotReady

end Sys2Proof.Machine
end

