-- ==== Sys2Proof/Machine/Decoder.lean ====
section
/-! DEFINITION. The Decoder operation RECV (spec/42_decoder.md). One definition per phase: each is one iteration of that
phase's blocking read, with every deterministic action that follows it (spec/10_state.md rule R35). -/

namespace Sys2Proof.Machine

/-- RECV at acceptance: RTO takes the explicit timeout if there is one, and the header read starts (R150, R151). -/
def recvStart (timeout : Option Word) (s : State) : State :=
  let s := match timeout with
    | some t => { s with rto := t }
    | none => s
  startRead 1 { s with phase := .recvHdr }

/-- After the checksum byte k: compare, then end (R158, R159). -/
def recvCompare (k : Byte) (s : State) : State :=
  if k ≠ frameChecksum s.cfg s.rcmd s.pbuf then failRecv .checksumMismatch s
  else finishRecv .ok s.rcmd s.pcnt s.pbuf s

/-- After the parameter block p: PBUF, then the checksum read or the end (R157 to R159). -/
def recvParamsRead (checksummed : Bool) (p : List Byte) (s : State) : State :=
  let s := { s with pbuf := p }
  if checksummed then startRead 1 { s with phase := .recvCks }
  else finishRecv .ok s.rcmd s.pcnt s.pbuf s

/-- After the command byte cb: RCMD, PCNT, the size check, and the start of the parameter read, which with PCNT = 0 succeeds
at once (R154 to R157, R58). -/
def recvCommandRead (checksummed : Bool) (len : Count) (cb : Byte) (s : State) : State :=
  let s := { s with rcmd := cb, pcnt := paramCount s.cfg cb len }
  if admissible s.cfg s.pcnt.toNat checksummed = false then failRecv .frameTooLarge s
  else
    let s := startRead s.pcnt { s with phase := .recvPar }
    if s.pcnt = 0 then recvParamsRead checksummed [] s else s

/-- After the header byte h: the header check and the start of the command read (R153, R154). -/
def recvHeaderRead (h : Byte) (s : State) : State :=
  if h ≠ s.cfg.hdr then failRecv .noHeaderFound s
  else startRead 1 { s with phase := .recvCmd }

/-- One iteration of the read of one byte, and what follows its first byte (R57; an expired read ends RECV with Incomplete, R153, R154, R158). -/
def recvByte (next : Byte → State → State) (s : State) : State :=
  match readIteration s with
  | .complete (b :: _) s' => next b s'
  | .complete [] s' => s'
  | .timedOut s' => failRecv .incomplete s'
  | .waiting s' => s'

/-- One iteration of the read of the parameter block, and what follows it (R157). -/
def recvBlock (checksummed : Bool) (s : State) : State :=
  match readIteration s with
  | .complete p s' => recvParamsRead checksummed p s'
  | .timedOut s' => failRecv .incomplete s'
  | .waiting s' => s'

/-- One core step of RECV in one of its four read phases. -/
def recvIteration (checksummed : Bool) (len : Count) (s : State) : State :=
  match s.phase with
  | .recvHdr => recvByte recvHeaderRead s
  | .recvCmd => recvByte (recvCommandRead checksummed len) s
  | .recvPar => recvBlock checksummed s
  | .recvCks => recvByte recvCompare s
  | .idle | .sendWr | .rawhcWr | .rawdatWr | .rawckWr | .syncScan | .resp => s

/-- RECV (R150). -/
def execRecv (checksummed : Bool) (len : Count) (timeout : Option Word) (s : State) : Result :=
  if s.phase = .idle then .next (recvStart timeout s)
  else if s.phase.isRecv = true then .next (recvIteration checksummed len s)
  else .fault .hostPortNotReady

end Sys2Proof.Machine
end

