-- ==== Sys2Proof/Machine/Framer.lean ====
section
/-! DEFINITION. The Framer operations SEND, RAWHC, RAWDAT and RAWCK (spec/40_framer.md). Each meaning runs the part of its
rule's pseudocode that the phase is at: in IDLE the part before the first `await` (R203), in its own *_WR phase the part
after it, which is the TX accept step (R61). -/

namespace Sys2Proof.Machine

/-! ### SEND (R110 to R115) -/

/-- SEND up to its `await`: the count check, the size check, then the write is offered (R110 to R113). -/
def sendStart (checksummed : Bool) (cmd : Byte) (params : List Byte) (s : State) : State :=
  if s.cfg.lenMode = .negotiated ∧ params.length ≠ (lookupCount s.cfg cmd).toNat then
    raiseError .parameterCountMismatch s
  else if admissible s.cfg params.length checksummed = false then raiseError .frameTooLarge s
  else offerWrite .sendWr (frameBytes s.cfg checksummed cmd params) s

/-- SEND after its `await`: the TX accept step (R113). The locals k and |frame| follow from the operands (log entry 16). -/
def sendAccepted (checksummed : Bool) (cmd : Byte) (params : List Byte) (s : State) : State :=
  respond .ok (if checksummed then frameChecksum s.cfg cmd params else 0)
    (BitVec.ofNat 16 (frameLength params.length checksummed)) [] (acceptWrite s)

/-- SEND (R110). -/
def execSend (checksummed : Bool) (cmd : Byte) (params : List Byte) (s : State) : Result :=
  if s.phase = .idle then .next (sendStart checksummed cmd params s)
  else if s.phase = .sendWr then .next (sendAccepted checksummed cmd params s)
  else .fault .hostPortNotReady

/-! ### RAWHC (R117, R118) -/

/-- RAWHC up to its `await` (R117). -/
def rawhcStart (cmd : Byte) (s : State) : State := offerWrite .rawhcWr [s.cfg.hdr, cmd] s

/-- RAWHC after its `await`: TXACC is set, the response is held (R118). -/
def rawhcAccepted (cmd : Byte) (s : State) : State :=
  respond .ok 0 2 [] { acceptWrite s with txacc := frameChecksum s.cfg cmd [] }

/-- RAWHC (R117). -/
def execRawhc (cmd : Byte) (s : State) : Result :=
  if s.phase = .idle then .next (rawhcStart cmd s)
  else if s.phase = .rawhcWr then .next (rawhcAccepted cmd s)
  else .fault .hostPortNotReady

/-! ### RAWDAT (R119 to R121) -/

/-- RAWDAT up to its `await`, or to its end with no data (R119, R120). -/
def rawdatStart (data : List Byte) (s : State) : State :=
  if data = [] then respond .ok 0 0 [] s else offerWrite .rawdatWr data s

/-- RAWDAT after its `await`: the data is folded into TXACC (R121). -/
def rawdatAccepted (data : List Byte) (s : State) : State :=
  respond .ok 0 (lenOf data) [] { acceptWrite s with txacc := s.txacc ^^^ fold data }

/-- RAWDAT (R119). -/
def execRawdat (data : List Byte) (s : State) : Result :=
  if s.phase = .idle then .next (rawdatStart data s)
  else if s.phase = .rawdatWr then .next (rawdatAccepted data s)
  else .fault .hostPortNotReady

/-! ### RAWCK (R122 to R124) -/

/-- RAWCK up to its `await`: the byte offered is TXACC (R122). -/
def rawckStart (s : State) : State := offerWrite .rawckWr [s.txacc] s

/-- RAWCK after its `await`: RESULT is the byte emitted, which is TXACC (R97, R124; log entry 16). -/
def rawckAccepted (s : State) : State := respond .ok s.txacc 1 [] (acceptWrite s)

/-- RAWCK (R122). -/
def execRawck (s : State) : Result :=
  if s.phase = .idle then .next (rawckStart s)
  else if s.phase = .rawckWr then .next (rawckAccepted s)
  else .fault .hostPortNotReady

end Sys2Proof.Machine
end

