-- ==== Sys2Proof/Machine/Synchronizer.lean ====
section
/-! DEFINITION. The Synchronizer operation SYNC (spec/41_synchronizer.md). -/

namespace Sys2Proof.Machine

/-- SYNC at acceptance: the strict check, then the scan starts (R131, R132). -/
def syncStart (s : State) : State :=
  if s.cfg.syncStrict = true ∧ s.rxAvail < Config.syncMin then raiseError .insufficientData s
  else { s with disc := 0, elapsed := 0, phase := .syncScan }

/-- The third and fourth tests of R134: discard the byte at the front, or poll. -/
def syncDiscard (s : State) : State :=
  match s.rxPop with
  | some (_, s') => { s' with disc := discardCount s.disc }
  | none => s

/-- One iteration of the scan loop, its tests in the order of R134. -/
def syncIteration (timeout : Word) (s : State) : State :=
  if s.rxPeek = some s.cfg.hdr then respond .ok 0 s.disc [] s
  else if expired timeout s.elapsed then raiseError .noHeaderFound s
  else syncDiscard s

/-- SYNC (R130). -/
def execSync (timeout : Word) (s : State) : Result :=
  if s.phase = .idle then .next (syncStart s)
  else if s.phase = .syncScan then .next (syncIteration timeout s)
  else .fault .hostPortNotReady

end Sys2Proof.Machine
end

