-- ==== Sys2Proof/Machine/Dispatch.lean ====
section
/-! DEFINITION. One arm per operation of the opcode table (spec/30_encoding.md rule R93). -/

namespace Sys2Proof.Machine

def exec (i : Instr) (s : State) : Host.Outcome State Fault Refusal :=
  match i with
  | .send checksummed cmd params => Sys2Proof.Machine.execSend checksummed cmd params s
  | .rawhc cmd => Sys2Proof.Machine.execRawhc cmd s
  | .rawdat data => Sys2Proof.Machine.execRawdat data s
  | .rawck => Sys2Proof.Machine.execRawck s
  | .sync timeout => Sys2Proof.Machine.execSync timeout s
  | .recv checksummed len timeout => Sys2Proof.Machine.execRecv checksummed len timeout s
  | .cksum bytes => Sys2Proof.Machine.execCksum bytes s

end Sys2Proof.Machine
end

