-- ==== Sys2Proof/Machine/Environment.lean ====
section
/-! DEFINITION. The step of each agent (spec/10_state.md rules R35, R43; spec/20_memory.md rules R55, R61, R64;
spec/60_exceptions.md rules R203, R206, R210; spec/70_reset_and_hazards.md rules R230 to R234). An entry of the schedule
whose step is not enabled in the state is no step of any agent: it changes nothing (log entry 5). -/

namespace Sys2Proof.Machine

/-- The acceptance of a transaction: latch, decode, then IllegalCommand or the operation up to its first `await` (R203,
R202). -/
def acceptCommand (t : Transaction) (s : State) : Result :=
  match decode s.cfg.lenMode t with
  | .error _ => .next (raiseError .illegalCommand (latch t s))
  | .ok i => exec i (latch t s)

/-- Is a command accepted now? Only in IDLE, out of reset, and with a payload the port can carry (R203, R230, R84; log
entry 14). -/
def offerEnabled (t : Transaction) (s : State) : Bool := s.rst == false && s.phase == .idle && t.wf

/-- The Host offers a command. -/
def stepOffer (t : Transaction) (s : State) : Result :=
  if offerEnabled t s = true then acceptCommand t s else .next s

/-- A core step: one iteration of the wait loop over the RX queue; in every other phase, and while rst is asserted, the
core has no step of its own (R35, R230). -/
def stepCore (s : State) : Result :=
  if s.rst = false ∧ s.phase.isRxWait = true then
    match s.current with
    | some i => exec i s
    | none => .next s
  else .next s

/-- A TX accept, enabled only when TXB ≠ [ ]; the core continues its operation in the same step (R61). -/
def stepTxAccept (s : State) : Result :=
  if s.rst = false ∧ s.phase.isWrite = true ∧ s.txb ≠ [] then
    match s.current with
    | some i => exec i s
    | none => .next s
  else .next s

/-- The Host takes the response, in RESP (R206). -/
def stepHostTake (s : State) : State := if s.rst = false ∧ s.phase = .resp then takeResponse s else s

/-- An RX arrival, in any phase and during reset. If RXCAP is finite and the queue is full, the byte may be dropped (R55;
log entry 13). -/
def stepRxArrive (b : Byte) (lose : Bool) (s : State) : State :=
  if lose = true ∧ s.rxcap = some s.rxAvail then s else { s with rxq := s.rxq ++ [b] }

/-- A Tick, in every phase; registers do not move while rst is asserted (R29, R230). -/
def stepTick (s : State) : State := if s.rst = true then s else { s with elapsed := tickCount s.elapsed }

/-- The step of the agent an event names. -/
def perform (e : Event) (s : State) : Result :=
  match e with
  | .core => stepCore s
  | .offer t => stepOffer t s
  | .hostTake => .next (stepHostTake s)
  | .rxArrive b lose => .next (stepRxArrive b lose s)
  | .tick => .next (stepTick s)
  | .txAccept => stepTxAccept s
  | .setInputs c => .next { s with cfgIn := c }
  | .assertReset => .next (assertReset s)
  | .releaseReset => .next (if s.rst = true then releaseReset s else s)

/-- Which agent moves next, and the schedule after it: the first entry, or the core when none is left (log entry 1). -/
def nextEvent (s : State) : Event × List Event :=
  match s.sched with
  | [] => (.core, [])
  | e :: rest => (e, rest)

end Sys2Proof.Machine
end

