-- ==== Sys2Proof/Machine/Step.lean ====
section
/-! DEFINITION. One step of the machine, and where a command comes from: the Host's `offer` entry of the schedule. -/

namespace Sys2Proof.Machine

/-- One atomic step of the agent that moves next (R35, R210). -/
def step (s : State) : Host.Outcome State Fault Refusal :=
  perform (nextEvent s).1 { s with sched := (nextEvent s).2 }

/-- The state in which the Host's next step is the offer of the transaction with the bits `w`. It runs where a command can
be accepted: in IDLE with rst released, as `State.reset` is (R203; log entry 11). -/
def State.withFetchWord (s : State) (nbits w : Nat) : State :=
  { s with sched := .offer (tableTransaction nbits w) :: s.sched }

end Sys2Proof.Machine
end

