-- ==== Sys2Proof/Machine/Assembler.lean ====
section
/-! DEFINITION. The spelling of commands and responses and the two pseudo-operations (spec/30_encoding.md rules R102 to
R105). `encode` is the assembler's translation of a command; this file has its text and the host sequences. -/

namespace Sys2Proof.Machine

/-! ### Pseudo-operations -/

/-- The commands `SENDRAW[.C] cmd, [d…]` expands to (R105). -/
def sendRawSequence (checksummed : Bool) (cmd : Byte) (data : List Byte) : List Instr :=
  [.rawhc cmd] ++ (if data = [] then [] else [.rawdat data]) ++ (if checksummed then [.rawck] else [])

/-- The first command of `SYNCRECV[.C] t [, n] [, to=u]` (R104). -/
def syncRecvFirst (timeout : Word) : Instr := .sync timeout

/-- The second command of `SYNCRECV`, after the response to the first: RECV if STATUS = OK, else none and that response is
the result (R104). -/
def syncRecvSecond (syncResponse : Response) (checksummed : Bool) (len : Count) (timeout : Option Word) : Option Instr :=
  if Status.ofCode syncResponse.statusField = some .ok then some (.recv checksummed len timeout) else none

/-! ### Text -/

/-- A hexadecimal digit. -/
def hexDigit (n : Nat) : String :=
  match n with
  | 10 => "A"
  | 11 => "B"
  | 12 => "C"
  | 13 => "D"
  | 14 => "E"
  | 15 => "F"
  | _ => toString n

/-- The last `digits` hexadecimal digits of a number. -/
def hexText : Nat → Nat → String
  | 0, _ => ""
  | digits + 1, v => hexText digits (v / 16) ++ hexDigit (v % 16)

/-- A byte as `0xNN` (R7). -/
def byteText (b : Byte) : String := "0x" ++ hexText 2 b.toNat

/-- A byte list as `[b0, b1, …]` (R102). -/
def bytesText (l : List Byte) : String := "[" ++ String.intercalate ", " (l.map byteText) ++ "]"

/-- The suffix `.C` when C = 1 (R102). -/
def suffixText (checksummed : Bool) : String := if checksummed then ".C" else ""

/-- The operand text of RECV: the declared count, when it is not 0, and the explicit timeout (R102, R106). -/
def recvOperandText (len : Count) (timeout : Option Word) : String :=
  match timeout with
  | none => if len = 0 then "" else " " ++ toString len.toNat
  | some t =>
    if len = 0 then " to=" ++ toString t.toNat else " " ++ toString len.toNat ++ ", to=" ++ toString t.toNat

/-- A command in the syntax of R102. -/
def instrText : Instr → String
  | .send c cmd params => "SEND" ++ suffixText c ++ " " ++ byteText cmd ++ ", " ++ bytesText params
  | .rawhc cmd => "RAWHC " ++ byteText cmd
  | .rawdat data => "RAWDAT " ++ bytesText data
  | .rawck => "RAWCK"
  | .sync timeout => "SYNC " ++ toString timeout.toNat
  | .recv c len timeout => "RECV" ++ suffixText c ++ recvOperandText len timeout
  | .cksum bytes => "CKSUM " ++ bytesText bytes

/-- The name of a status (R103, R200). -/
def statusText : Status → String
  | .ok => "OK"
  | .noHeaderFound => "NoHeaderFound"
  | .insufficientData => "InsufficientData"
  | .parameterCountMismatch => "ParameterCountMismatch"
  | .frameTooLarge => "FrameTooLarge"
  | .incomplete => "Incomplete"
  | .checksumMismatch => "ChecksumMismatch"
  | .illegalCommand => "IllegalCommand"

/-- A response in the notation of R103; none for a reserved status, which has no meaning (R100). -/
def responseText (r : Response) : Option String :=
  (Status.ofCode r.statusField).map fun st =>
    "→ " ++ statusText st ++ " 0x" ++ hexText 8 r.word.toNat ++
      (if r.payload = [] then ""
       else " [" ++ String.intercalate " " (r.payload.map fun b => hexText 2 b.toNat) ++ "]")

end Sys2Proof.Machine
end

