-- ==== Sys2Proof/Safety.lean ====
section
/-! DEFINITION. The terms in which claims are stated: what the machine's states satisfy (`Inv`), when an operation's operands
are latched, and what two states share. -/

namespace Sys2Proof.Machine

/-- The operation latch holds the fields of the command `i` (R85). -/
abbrev Latched (i : Instr) (s : State) : Prop := s.opl = Opl.ofTransaction (encode i)

/-- A result with its next state changed by `f`. -/
def mapNext (f : State → State) : Result → Result
  | .next s => .next (f s)
  | .fault r => .fault r
  | .refused r => .refused r

/-- The phases in which an operation has something to do: IDLE, where it is accepted, and its own (R33). -/
def ownPhase (i : Instr) (p : Phase) : Bool :=
  match i with
  | .send _ _ _ => p == .idle || p == .sendWr
  | .rawhc _ => p == .idle || p == .rawhcWr
  | .rawdat _ => p == .idle || p == .rawdatWr
  | .rawck => p == .idle || p == .rawckWr
  | .sync _ => p == .idle || p == .syncScan
  | .recv _ _ _ => p == .idle || p.isRecv
  | .cksum _ => p == .idle

/-- The state with the given steps ahead of it (log entry 1). -/
def State.scheduled (s : State) (es : List Event) : State := { s with sched := es }

/-- `n` steps of the machine, up to the first that stops. -/
def steps : Nat → State → Result
  | 0, s => .next s
  | n + 1, s =>
    match step s with
    | .next t => steps n t
    | .fault r => .fault r
    | .refused r => .refused r

/-- A Framer operation (R110, R117, R119, R122). -/
def isFramer : Instr → Bool
  | .send _ _ _ | .rawhc _ | .rawdat _ | .rawck => true
  | .sync _ | .recv _ _ _ | .cksum _ => false

/-- A raw-mode operation (R116). -/
def isRaw : Instr → Bool
  | .rawhc _ | .rawdat _ | .rawck => true
  | .send _ _ _ | .sync _ | .recv _ _ _ | .cksum _ => false

/-- `t` has the core registers of `s`; only the environment may differ. -/
abbrev SameCore (s t : State) : Prop :=
  t = { s with
        rxq := t.rxq, txlog := t.txlog, rxcap := t.rxcap, rst := t.rst, cfgIn := t.cfgIn, configOut := t.configOut
        hostlog := t.hostlog, sched := t.sched }

/-- The bytes of a *_WR phase's pending write, from the latched operands (R110, R117, R119, R122). -/
def pendingWrite (s : State) : List Byte :=
  match s.phase with
  | .sendWr => frameBytes s.cfg s.opl.c s.opl.cmd s.opl.payload
  | .rawhcWr => [s.cfg.hdr, s.opl.cmd]
  | .rawdatWr => s.opl.payload
  | .rawckWr => [s.txacc]
  | .idle | .syncScan | .recvHdr | .recvCmd | .recvPar | .recvCks | .resp => []

/-- The opcode of the operation a phase belongs to (R33, R93); IDLE and RESP belong to none. -/
def phaseOp : Phase → Option (BitVec 4)
  | .idle | .resp => none
  | .sendWr => some 1
  | .rawhcWr => some 2
  | .rawdatWr => some 3
  | .rawckWr => some 4
  | .syncScan => some 5
  | .recvHdr | .recvCmd | .recvPar | .recvCks => some 6

/-- What the spec says of every state a run reaches. -/
structure Inv (s : State) : Prop where
  /-- RSP is not none iff PHASE = RESP (R41). -/
  rsp_iff : s.rsp ≠ none ↔ s.phase = .resp
  /-- TXB is the offered write in a *_WR phase and empty in every other phase (R40). -/
  txb_eq : s.txb = pendingWrite s
  /-- In a *_WR phase TXB ≠ [ ] (R48). -/
  txb_ne : s.phase.isWrite = true → s.txb ≠ []
  /-- A SEND in SEND_WR has an admissible frame (R81, R113). -/
  send_fits : s.phase = .sendWr → admissible s.cfg s.opl.payload.length s.opl.c = true
  /-- RTO is the default in every phase outside RECV (R47). -/
  rto_default : s.phase.isRecv = false → s.rto = s.cfg.defaultRto
  /-- |RDBUF| ≤ RDN (R39). -/
  rdbuf_le : s.rdbuf.length ≤ s.rdn.toNat
  /-- A read in progress wants at least one more byte (R57, R58). -/
  rdbuf_lt : s.phase.isRecv = true → s.rdbuf.length < s.rdn.toNat
  /-- The header, command and checksum reads ask for one byte (R152). -/
  rdn_one : s.phase = .recvHdr ∨ s.phase = .recvCmd ∨ s.phase = .recvCks → s.rdn = 1
  /-- The parameter read asks for PCNT bytes (R157). -/
  rdn_par : s.phase = .recvPar → s.rdn = s.pcnt
  /-- After the size check the frame is admissible (R156). -/
  recv_fits : s.phase = .recvPar ∨ s.phase = .recvCks → admissible s.cfg s.pcnt.toNat s.opl.c = true
  /-- The checksum read belongs to a checksummed RECV whose parameters are in PBUF (R157, R158). -/
  cks_ready : s.phase = .recvCks → s.opl.c = true ∧ s.pbuf.length = s.pcnt.toNat
  /-- OPL's payload and PBUF hold at most 65535 bytes (R34, R38). -/
  opl_fits : s.opl.payload.length ≤ 65535
  pbuf_fits : s.pbuf.length ≤ 65535
  /-- The latched opcode is the phase's (R33, R34). -/
  op_phase : ∀ op, phaseOp s.phase = some op → s.opl.op = op
  /-- A SYNC has its timeout (R130). -/
  sync_timeout : s.phase = .syncScan → s.opl.timeout ≠ none
  /-- A held response has an assigned status, and its OPX echoes the latched opcode (R96, R100, R204). -/
  rsp_word : ∀ r, s.rsp = some r → Status.ofCode r.statusField ≠ none ∧ r.opxField = s.opl.op
  /-- Every accepted write has 1 to 65535 bytes (R68). -/
  txlog_sizes : ∀ w ∈ s.txlog, 1 ≤ w.length ∧ w.length ≤ 65535
  /-- While rst is asserted the core is IDLE with nothing offered and nothing held (R230). -/
  rst_idle : s.rst = true → s.phase = .idle

end Sys2Proof.Machine
end

