-- ==== Sys2Proof/Certificates/Slice0/Obligations.lean ====
section
/-! DEFINITION. The statements for the provers. Each docstring says which rule of spec/ it formalises. `State` is
quantified over, so every configuration, schedule and queue is covered; none rests on the values of `State.reset` that the
model chose (log entries 3, 4 and 6). -/

open Sys2Proof Sys2Proof.Machine

/-! ### Encoding -/

/-- Decoding the spelling of a well-formed command gives the command back, with every operand (R94, R98, R102). -/
def Obligations.DecodeOfEncodeIsTheCommand : Prop :=
  ∀ (mode : LenMode) (i : Instr), i.wf mode = true → decode mode (encode i) = .ok i

/-- A transaction that decodes is exactly the spelling of the command it decodes to, so each command has one encoding and
no bit of a legal transaction is ignored (R94, R98). -/
def Obligations.LegalTransactionIsTheSpellingOfItsCommand : Prop :=
  ∀ (mode : LenMode) (t : Transaction) (i : Instr),
    decode mode t = .ok i → encode i = t ∧ i.wf mode = true ∧ t.wf = true

/-- R99, its list of cases field by field, and R202, the answer to an illegal command, which changes nothing else. The fixed
fields are those of R94: C where the operation takes none, T, CMD and LEN. -/
def Obligations.IllegalExactlyInTheListedCases : Prop :=
  (∀ (mode : LenMode) (t : Transaction),
    (∃ e, decode mode t = .error e) ↔
      ((descOp t.desc = 0 ∨ 8 ≤ (descOp t.desc).toNat) ∨
       descRes t.desc ≠ 0 ∨
       (descC t.desc = true ∧ descOp t.desc ≠ 1 ∧ descOp t.desc ≠ 6) ∨
       (descT t.desc = true ∧ descOp t.desc ≠ 5 ∧ descOp t.desc ≠ 6) ∨
       (descT t.desc = false ∧ descOp t.desc = 5) ∨
       (descCmd t.desc ≠ 0 ∧ descOp t.desc ≠ 1 ∧ descOp t.desc ≠ 2) ∨
       (descLen t.desc ≠ 0 ∧ (descOp t.desc = 2 ∨ descOp t.desc = 4 ∨ descOp t.desc = 5)) ∨
       (t.tmo.isSome ≠ descT t.desc) ∨
       ((descOp t.desc = 1 ∨ descOp t.desc = 3 ∨ descOp t.desc = 7) ∧
          t.payload.length ≠ (descLen t.desc).toNat) ∨
       ((descOp t.desc = 2 ∨ descOp t.desc = 4 ∨ descOp t.desc = 5 ∨ descOp t.desc = 6) ∧ t.payload ≠ []) ∨
       (descOp t.desc = 6 ∧ mode = .negotiated ∧ descLen t.desc ≠ 0))) ∧
  (∀ (s : State) (t : Transaction) (es : List Event) (e : DecodeError),
    s.rst = false → s.phase = .idle → t.wf = true → decode s.cfg.lenMode t = .error e →
    ∃ u, step (s.scheduled (.offer t :: es)) = .next u ∧
      u = { s with
            opl := Opl.ofTransaction t
            rsp := some ⟨BitVec.ofNat 32 (7 * 2 ^ 28 + (t.desc.toNat / 2 ^ 28) * 2 ^ 24), []⟩
            txb := [], phase := .resp, sched := es })

/-- The ten examples of R106: each command is spelled by the transaction of its row, which decodes to it. -/
def Obligations.EncodingExamplesOfTheSpec : Prop :=
  [ (Instr.send true 0x01 [0x10, 0x20], (⟨0x18010002, none, [0x10, 0x20]⟩ : Transaction)),
    (.send false 0x02 [0, 0, 0], ⟨0x10020003, none, [0, 0, 0]⟩),
    (.rawhc 0x01, ⟨0x20010000, none, []⟩),
    (.rawdat [0x10, 0x20], ⟨0x30000002, none, [0x10, 0x20]⟩),
    (.rawck, ⟨0x40000000, none, []⟩),
    (.sync 1000, ⟨0x54000000, some 0x000003E8, []⟩),
    (.recv true 0 none, ⟨0x68000000, none, []⟩),
    (.recv true 0 (some 5), ⟨0x6C000000, some 0x00000005, []⟩),
    (.recv true 3 none, ⟨0x68000003, none, []⟩),
    (.cksum [0xAA, 0x01, 0x10, 0x20], ⟨0x70000004, none, [0xAA, 0x01, 0x10, 0x20]⟩) ].all
    (fun p => decide (encode p.1 = p.2) && decide ((decode .declared p.2).toOption = some p.1)) = true

/-- R85: an accepted transaction, legal or not, is latched into OPL field by field; desc[25:24] is checked, and two transactions
that differ only there latch the same. -/
def Obligations.AcceptanceLatchesTheDescriptorFields : Prop :=
  (∀ (s : State) (t : Transaction) (es : List Event),
    s.rst = false → s.phase = .idle → t.wf = true →
    ∃ u, step (s.scheduled (.offer t :: es)) = .next u ∧
      u.opl.op.toNat = t.desc.toNat / 2 ^ 28 ∧
      u.opl.c = t.desc.getLsbD 27 ∧ u.opl.t = t.desc.getLsbD 26 ∧
      u.opl.cmd.toNat = t.desc.toNat / 2 ^ 16 % 2 ^ 8 ∧ u.opl.len.toNat = t.desc.toNat % 2 ^ 16 ∧
      u.opl.timeout = t.tmo ∧ u.opl.payload = t.payload) ∧
  (∀ (mode : LenMode) (t : Transaction), t.desc.extractLsb' 24 2 ≠ 0 → ∃ e, decode mode t = .error e) ∧
  (∀ (t : Transaction) (d : Word), d &&& 0xFCFFFFFF = t.desc &&& 0xFCFFFFFF →
    Opl.ofTransaction { t with desc := d } = Opl.ofTransaction t)

/-- R96: the response word as the sum of its fields at their places, the fields read back, and OPX as the echo of desc[31:28]. -/
def Obligations.ResponseWordLayout : Prop :=
  (∀ (st : Status) (opx : BitVec 4) (r : Byte) (n : Count) (pl : List Byte),
    (responseWord st opx r n).toNat =
      st.code.toNat * 2 ^ 28 + opx.toNat * 2 ^ 24 + r.toNat * 2 ^ 16 + n.toNat ∧
    Response.statusField ⟨responseWord st opx r n, pl⟩ = st.code ∧
    Response.opxField ⟨responseWord st opx r n, pl⟩ = opx ∧
    Response.resultField ⟨responseWord st opx r n, pl⟩ = r ∧
    Response.countField ⟨responseWord st opx r n, pl⟩ = n) ∧
  (∀ (st : Status) (r : Byte) (n : Count) (pl : List Byte) (t : Transaction) (s : State),
    ∃ w, (respond st r n pl (latch t s)).rsp = some ⟨w, pl⟩ ∧
      (Response.opxField ⟨w, pl⟩).toNat = t.desc.toNat / 2 ^ 28)

/-! ### Checksum Engine -/

/-- R184: Fold does not depend on the order of the bytes. -/
def Obligations.FoldIsOrderIndependent : Prop :=
  ∀ l l' : List Byte, l.Perm l' → fold l = fold l'

/-- The five laws the spec derives in R185: append, a pair of equal bytes, a list with its own fold, one changed position,
and each bit as a parity; and what it derives in R186: the XOR of every byte of a checksummed frame is 0x00 under HDR_INCLUDED
and CFG.HDR under HDR_EXCLUDED. -/
def Obligations.FoldLaws : Prop :=
  (∀ a l : List Byte, fold (a ++ l) = fold a ^^^ fold l) ∧
  (∀ x : Byte, fold [x, x] = 0) ∧
  (∀ l : List Byte, fold (l ++ [fold l]) = 0) ∧
  (∀ (a l : List Byte) (x y : Byte), x ≠ y → fold (a ++ x :: l) ≠ fold (a ++ y :: l)) ∧
  (∀ (l : List Byte) (i : Nat), (fold l).getLsbD i = decide ((l.filter (fun b => b.getLsbD i)).length % 2 = 1)) ∧
  (∀ (cfg : Cfg) (cmd : Byte) (params : List Byte),
    (cfg.ckWin = .hdrIncluded → fold (frameBytes cfg true cmd params) = 0) ∧
    (cfg.ckWin = .hdrExcluded → fold (frameBytes cfg true cmd params) = cfg.hdr))

/-- R182, R183: CKSUM answers the fold of the bytes it is given, in one step, and changes nothing else; CFG.HDR and
CFG.CKWIN do not matter. -/
def Obligations.CksumAnswersTheFoldInOneStep : Prop :=
  ∀ (bytes : List Byte) (s : State), s.phase = .idle → Latched (.cksum bytes) s → s.txb = [] →
    exec (.cksum bytes) s =
      .next { s with rsp := some ⟨responseWord .ok 7 (fold bytes) (lenOf bytes), []⟩, phase := .resp } ∧
    ∀ (h : Byte) (w : CkWin),
      exec (.cksum bytes) { s with cfg := { s.cfg with hdr := h, ckWin := w } } =
        mapNext (fun t => { t with cfg := { t.cfg with hdr := h, ckWin := w } }) (exec (.cksum bytes) s)

/-! ### Framer -/

/-- R111: in NEGOTIATED mode SEND requires N = CFG.LOOKUP(cmd), tested before the size check; in DECLARED mode a SEND never
answers ParameterCountMismatch. -/
def Obligations.SendChecksTheNegotiatedCount : Prop :=
  (∀ (c : Bool) (cmd : Byte) (params : List Byte) (s : State),
    s.phase = .idle → Latched (.send c cmd params) s → s.cfg.lenMode = .negotiated →
    params.length ≠ (lookupCount s.cfg cmd).toNat →
    exec (.send c cmd params) s = .next { s with rsp := some ⟨0x31000000, []⟩, txb := [], phase := .resp }) ∧
  (∀ (c : Bool) (cmd : Byte) (params : List Byte) (s t : State) (r : Response),
    s.phase = .idle →
    (s.cfg.lenMode = .declared ∨ params.length = (lookupCount s.cfg cmd).toNat) →
    exec (.send c cmd params) s = .next t → t.rsp = some r → s.rsp = none →
    Status.ofCode r.statusField ≠ some .parameterCountMismatch)

/-- R112: once the count is right, SEND answers FrameTooLarge iff 2 + N + c > CFG.MAXF, and otherwise, the boundary included,
offers the frame. -/
def Obligations.SendChecksTheFrameSize : Prop :=
  ∀ (c : Bool) (cmd : Byte) (params : List Byte) (s : State),
    s.phase = .idle → Latched (.send c cmd params) s →
    (s.cfg.lenMode = .declared ∨ params.length = (lookupCount s.cfg cmd).toNat) →
    (s.cfg.maxf.toNat < 2 + params.length + c.toNat →
      exec (.send c cmd params) s = .next { s with rsp := some ⟨0x41000000, []⟩, txb := [], phase := .resp }) ∧
    (2 + params.length + c.toNat ≤ s.cfg.maxf.toNat →
      exec (.send c cmd params) s =
        .next { s with phase := .sendWr, txb := frameBytes s.cfg c cmd params })

/-- R113's second half, for every state in SEND_WR: the TX accept logs the write and holds the response. -/
def Obligations.SendCompletesOnTxAccept : Prop :=
  ∀ (c : Bool) (cmd : Byte) (params : List Byte) (s : State),
    s.phase = .sendWr → Latched (.send c cmd params) s →
    exec (.send c cmd params) s =
      .next { s with
        txlog := s.txlog ++ [s.txb], txb := []
        rsp := some ⟨responseWord .ok 1 (if c then fold (window s.cfg cmd params) else 0)
          (BitVec.ofNat 16 (2 + params.length + c.toNat)), []⟩
        phase := .resp }

/-- R113 as the machine runs it: offered in IDLE with both checks passing, SEND makes one txlog entry holding the whole
frame, header, command, parameters in order and the checksum if requested, and answers OK. -/
def Obligations.SendWritesTheWholeFrameAtOnce : Prop :=
  ∀ (c : Bool) (cmd : Byte) (params : List Byte) (s : State) (es : List Event),
    s.rst = false → s.phase = .idle →
    (s.cfg.lenMode = .declared ∨ params.length = (lookupCount s.cfg cmd).toNat) →
    2 + params.length + c.toNat ≤ s.cfg.maxf.toNat →
    ∃ t u,
      step (s.scheduled (.offer (encode (.send c cmd params)) :: .txAccept :: es)) = .next t ∧
      t.phase = .sendWr ∧
      t.txb = [s.cfg.hdr, cmd] ++ params ++ (if c then [fold (window s.cfg cmd params)] else []) ∧
      step t = .next u ∧
      u = { s with
        opl := Opl.ofTransaction (encode (.send c cmd params))
        txlog := s.txlog ++ [[s.cfg.hdr, cmd] ++ params ++ (if c then [fold (window s.cfg cmd params)] else [])]
        txb := []
        rsp := some ⟨responseWord .ok 1 (if c then fold (window s.cfg cmd params) else 0)
          (BitVec.ofNat 16 (2 + params.length + c.toNat)), []⟩
        phase := .resp, sched := es }

/-- R114: a SEND that fails writes nothing to TX, adds no txlog entry, and leaves TXACC, RTO and rxq alone: the error response
is its only effect. -/
def Obligations.FailedSendOnlyAnswers : Prop :=
  ∀ (c : Bool) (cmd : Byte) (params : List Byte) (s t : State),
    s.phase = .idle → s.txb = [] → exec (.send c cmd params) s = .next t → t.phase ≠ .sendWr →
    t = { s with rsp := t.rsp, phase := .resp } ∧
    ∃ r, t.rsp = some r ∧
      (Status.ofCode r.statusField = some .parameterCountMismatch ∨
       Status.ofCode r.statusField = some .frameTooLarge)

/-- RAWHC completes in its write phase (R117, R118). -/
def Obligations.RawhcCompletesOnTxAccept : Prop :=
  ∀ (cmd : Byte) (s : State), s.phase = .rawhcWr → Latched (.rawhc cmd) s →
    exec (.rawhc cmd) s =
      .next { s with
        txlog := s.txlog ++ [s.txb], txb := [], txacc := fold (window s.cfg cmd [])
        rsp := some ⟨0x02000002, []⟩, phase := .resp }

/-- R118 as the machine runs it: one entry [HDR, cmd]; TXACC is HDR ⊕ cmd under HDR_INCLUDED and cmd under HDR_EXCLUDED. -/
def Obligations.RawhcWritesHeaderAndCommand : Prop :=
  ∀ (cmd : Byte) (s : State) (es : List Event), s.rst = false → s.phase = .idle →
    steps 2 (s.scheduled (.offer (encode (.rawhc cmd)) :: .txAccept :: es)) =
      .next { s with
        opl := Opl.ofTransaction (encode (.rawhc cmd))
        txlog := s.txlog ++ [[s.cfg.hdr, cmd]], txb := []
        txacc := (match s.cfg.ckWin with
          | .hdrIncluded => s.cfg.hdr ^^^ cmd
          | .hdrExcluded => cmd)
        rsp := some ⟨0x02000002, []⟩, phase := .resp, sched := es }

/-- R120: RAWDAT with no data makes no write and answers in its acceptance step. -/
def Obligations.EmptyRawdatAnswersAtOnce : Prop :=
  ∀ (s : State) (es : List Event), s.rst = false → s.phase = .idle → s.txb = [] →
    step (s.scheduled (.offer (encode (.rawdat [])) :: es)) =
      .next { s with
        opl := Opl.ofTransaction (encode (.rawdat []))
        rsp := some ⟨0x03000000, []⟩, phase := .resp, sched := es }

/-- RAWDAT completes in its write phase (R119, R121). -/
def Obligations.RawdatCompletesOnTxAccept : Prop :=
  ∀ (data : List Byte) (s : State), s.phase = .rawdatWr → Latched (.rawdat data) s →
    exec (.rawdat data) s =
      .next { s with
        txlog := s.txlog ++ [s.txb], txb := [], txacc := s.txacc ^^^ fold data
        rsp := some ⟨responseWord .ok 3 0 (lenOf data), []⟩, phase := .resp }

/-- R121: each RAWDAT with data makes its own entry, and the folds of several in a row accumulate in TXACC. -/
def Obligations.RawdatFoldsAccumulate : Prop :=
  ∀ (d d' : List Byte) (s : State) (es : List Event),
    s.rst = false → s.phase = .idle → d ≠ [] → d.length ≤ 65535 → d' ≠ [] → d'.length ≤ 65535 →
    ∃ t u,
      steps 2 (s.scheduled (.offer (encode (.rawdat d)) :: .txAccept :: .hostTake ::
          .offer (encode (.rawdat d')) :: .txAccept :: es)) = .next t ∧
      t.txlog = s.txlog ++ [d] ∧ t.txacc = s.txacc ^^^ fold d ∧
      t.rsp = some ⟨responseWord .ok 3 0 (lenOf d), []⟩ ∧
      steps 3 t = .next u ∧
      u = { s with
        opl := Opl.ofTransaction (encode (.rawdat d'))
        txlog := s.txlog ++ [d, d'], txacc := s.txacc ^^^ fold d ^^^ fold d', txb := []
        hostlog := s.hostlog ++ [⟨responseWord .ok 3 0 (lenOf d), []⟩]
        rsp := some ⟨responseWord .ok 3 0 (lenOf d'), []⟩, phase := .resp, sched := es }

/-- RAWCK completes in its write phase, and leaves TXACC (R122, R124). -/
def Obligations.RawckCompletesOnTxAccept : Prop :=
  ∀ s : State, s.phase = .rawckWr → Latched .rawck s →
    exec .rawck s =
      .next { s with
        txlog := s.txlog ++ [s.txb], txb := []
        rsp := some ⟨responseWord .ok 4 s.txacc 1, []⟩, phase := .resp }

/-- R124 as the machine runs it: one entry [TXACC], and RESULT is that byte. -/
def Obligations.RawckWritesTheAccumulator : Prop :=
  ∀ (s : State) (es : List Event), s.rst = false → s.phase = .idle →
    steps 2 (s.scheduled (.offer (encode .rawck) :: .txAccept :: es)) =
      .next { s with
        opl := Opl.ofTransaction (encode .rawck)
        txlog := s.txlog ++ [[s.txacc]], txb := []
        rsp := some ⟨responseWord .ok 4 s.txacc 1, []⟩, phase := .resp, sched := es }

/-- What the spec derives in R127: RAWHC, RAWDAT, RAWCK, with the response to each but the last taken, put the bytes of SEND.C's
frame on the wire in two or three entries and leave TXACC = Fold(Window(HDR, cmd, p)), with no check of count or size. -/
def Obligations.RawSequenceWritesTheChecksummedFrame : Prop :=
  ∀ (cmd : Byte) (p : List Byte) (s : State) (es : List Event),
    s.rst = false → s.phase = .idle → p.length ≤ 65535 →
    (p ≠ [] → ∃ u,
      steps 8 (s.scheduled (.offer (encode (.rawhc cmd)) :: .txAccept :: .hostTake ::
          .offer (encode (.rawdat p)) :: .txAccept :: .hostTake :: .offer (encode .rawck) :: .txAccept :: es)) = .next u ∧
      u.txlog = s.txlog ++ [[s.cfg.hdr, cmd], p, [fold (window s.cfg cmd p)]] ∧
      [s.cfg.hdr, cmd] ++ p ++ [fold (window s.cfg cmd p)] = frameBytes s.cfg true cmd p ∧
      u.txacc = fold (window s.cfg cmd p) ∧ u.phase = .resp) ∧
    (∃ u,
      steps 5 (s.scheduled (.offer (encode (.rawhc cmd)) :: .txAccept :: .hostTake ::
          .offer (encode .rawck) :: .txAccept :: es)) = .next u ∧
      u.txlog = s.txlog ++ [[s.cfg.hdr, cmd], [fold (window s.cfg cmd [])]] ∧
      [s.cfg.hdr, cmd] ++ [fold (window s.cfg cmd [])] = frameBytes s.cfg true cmd [] ∧
      u.txacc = fold (window s.cfg cmd []) ∧ u.phase = .resp)

/-- R125: the raw operations read neither CFG.MAXF nor CFG.LOOKUP, and raise neither ParameterCountMismatch nor
FrameTooLarge. -/
def Obligations.RawOperationsMakeNoChecks : Prop :=
  ∀ (i : Instr) (s : State), isRaw i = true →
    (∀ (m : Count) (l : Vector Count 256),
      exec i { s with cfg := { s.cfg with maxf := m, lookup := l } } =
        mapNext (fun t => { t with cfg := { t.cfg with maxf := m, lookup := l } }) (exec i s)) ∧
    (∀ (t : State) (r : Response), exec i s = .next t → t.rsp = some r → s.rsp = none →
      Status.ofCode r.statusField = some .ok)

/-- The frame of the Framer operations (the spec derives it in R126): only PHASE, TXB, RSP, txlog and TXACC may change, TXACC
only by RAWHC and RAWDAT, and txlog only by the pending write. -/
def Obligations.FramerOperationsFrame : Prop :=
  ∀ (i : Instr) (s t : State), isFramer i = true → exec i s = .next t →
    t = { s with phase := t.phase, txb := t.txb, rsp := t.rsp, txlog := t.txlog, txacc := t.txacc } ∧
    (t.txlog = s.txlog ∨ (s.phase.isWrite = true ∧ t.txlog = s.txlog ++ [s.txb])) ∧
    ((∀ cmd, i ≠ .rawhc cmd) → (∀ d, i ≠ .rawdat d) → t.txacc = s.txacc) ∧
    (s.phase = .idle → t.txacc = s.txacc ∧ t.txlog = s.txlog)

/-! ### Synchronizer -/

/-- R131: unless the strict check fails, acceptance sets DISC and ELAPSED to 0 and enters SYNC_SCAN; SYNC neither reads nor
writes RTO. -/
def Obligations.SyncStartsTheScan : Prop :=
  (∀ (timeout : Word) (s : State), s.phase = .idle → (s.cfg.syncStrict = false ∨ 3 ≤ s.rxq.length) →
    exec (.sync timeout) s = .next { s with disc := 0, elapsed := 0, phase := .syncScan }) ∧
  (∀ (timeout r : Word) (s : State),
    exec (.sync timeout) { s with rto := r } = mapNext (fun t => { t with rto := r }) (exec (.sync timeout) s))

/-- R132: with CFG.SYNC_STRICT and fewer than 3 bytes buffered, SYNC answers InsufficientData in its acceptance step and
consumes nothing; after acceptance, and without the strict variant, it never answers InsufficientData. -/
def Obligations.StrictSyncNeedsThreeBytes : Prop :=
  (∀ (timeout : Word) (s : State), s.phase = .idle → Latched (.sync timeout) s → s.cfg.syncStrict = true →
    s.rxq.length < 3 →
    exec (.sync timeout) s = .next { s with rsp := some ⟨0x25000000, []⟩, txb := [], phase := .resp }) ∧
  (∀ (timeout : Word) (s t : State) (r : Response), s.rsp = none →
    (s.phase = .syncScan ∨ s.cfg.syncStrict = false ∨ 3 ≤ s.rxq.length) →
    exec (.sync timeout) s = .next t → t.rsp = some r →
    Status.ofCode r.statusField ≠ some .insufficientData)

/-- R134: the four tests of a scan step, in order, each with its whole effect. -/
def Obligations.ScanStepTestsInOrder : Prop :=
  ∀ (timeout : Word) (s : State), s.phase = .syncScan → Latched (.sync timeout) s →
    (s.rxq.head? = some s.cfg.hdr →
      exec (.sync timeout) s =
        .next { s with rsp := some ⟨responseWord .ok 5 0 s.disc, []⟩, txb := [], phase := .resp }) ∧
    (s.rxq.head? ≠ some s.cfg.hdr → timeout.toNat < s.elapsed.toNat →
      exec (.sync timeout) s = .next { s with rsp := some ⟨0x15000000, []⟩, txb := [], phase := .resp }) ∧
    (∀ (b : Byte) (rest : List Byte), s.rxq = b :: rest → b ≠ s.cfg.hdr → s.elapsed.toNat ≤ timeout.toNat →
      ∃ d : Count, d.toNat = min (s.disc.toNat + 1) 65535 ∧
        exec (.sync timeout) s = .next { s with rxq := rest, disc := d }) ∧
    (s.rxq = [] → s.elapsed.toNat ≤ timeout.toNat → exec (.sync timeout) s = .next s)

/-- R133: SYNC never consumes a byte equal to CFG.HDR, and where it answers OK the header is still at the front and is what the
next RxPop takes, whatever arrives behind it. -/
def Obligations.SyncNeverConsumesAHeader : Prop :=
  ∀ (timeout : Word) (s t : State), exec (.sync timeout) s = .next t →
    (t.rxq = s.rxq ∨ ∃ b, b ≠ s.cfg.hdr ∧ s.rxq = b :: t.rxq) ∧
    (∀ r, t.rsp = some r → s.rsp = none → Status.ofCode r.statusField = some .ok →
      t.rxq = s.rxq ∧ t.rxq.head? = some s.cfg.hdr ∧
      ∀ l, (State.rxPop { t with rxq := t.rxq ++ l }).map Prod.fst = some s.cfg.hdr)

/-- What the spec derives in R136 and R142: with an empty queue, no arrival and a non-strict configuration, SYNC with limit
T is still scanning at a core step after any number n ≤ T of Ticks, and answers NoHeaderFound at the first core step after
T + 1. That the acceptance and a poll are one step each is the model's reading of R35 (log entry 18). -/
def Obligations.SyncExpiresAfterExactlyMoreThanTTicks : Prop :=
  ∀ (timeout : Word) (s : State), s.rst = false → s.phase = .idle → s.cfg.syncStrict = false → s.rxq = [] →
    (∀ n, n ≤ timeout.toNat → ∃ u,
      steps (n + 2) (s.scheduled (.offer (encode (.sync timeout)) :: (List.replicate n .tick ++ [.core]))) = .next u ∧
      u.phase = .syncScan ∧ u.elapsed.toNat = n) ∧
    (∃ u,
      steps (timeout.toNat + 3) (s.scheduled (.offer (encode (.sync timeout)) ::
          (List.replicate (timeout.toNat + 1) .tick ++ [.core]))) = .next u ∧
      u.phase = .resp ∧ u.rsp = some ⟨0x15000000, []⟩ ∧ u.rxq = [])

/-- What the spec derives in R139: with no Tick, SYNC removes exactly the bytes before the first header, whatever their
number, and reports that number saturated at 0xFFFF. The number of steps is a fact about the model's steps, one a discard (log
entry 18); step counts are not normative. -/
def Obligations.SyncDiscardsExactlyThePrefix : Prop :=
  ∀ (timeout : Word) (s : State) (noise rest : List Byte),
    s.rst = false → s.phase = .idle → s.cfg.syncStrict = false →
    s.rxq = noise ++ s.cfg.hdr :: rest → s.cfg.hdr ∉ noise →
    ∃ u, steps (noise.length + 2) (s.scheduled [.offer (encode (.sync timeout))]) = .next u ∧
      u.phase = .resp ∧ u.rxq = s.cfg.hdr :: rest ∧
      u.rsp = some ⟨responseWord .ok 5 0 (BitVec.ofNat 16 (min noise.length 65535)), []⟩

/-! ### Decoder -/

/-- RECV starts: an explicit timeout goes to RTO, otherwise RTO keeps its value, and the header read begins (R150, R151). -/
def Obligations.RecvStartsTheHeaderRead : Prop :=
  ∀ (c : Bool) (len : Count) (timeout : Option Word) (s : State), s.phase = .idle →
    exec (.recv c len timeout) s =
      .next { s with
        rto := timeout.getD s.rto, phase := .recvHdr, rdn := 1, rdbuf := [], elapsed := 0 }

/-- The header read (R153): the byte is consumed; a header starts the command read, another byte answers NoHeaderFound; an
expired read answers Incomplete with nothing consumed; otherwise the core polls. -/
def Obligations.RecvHeaderStep : Prop :=
  ∀ (c : Bool) (len : Count) (timeout : Option Word) (s : State),
    s.phase = .recvHdr → Latched (.recv c len timeout) s → s.rdn = 1 → s.rdbuf = [] →
    (∀ rest, s.rxq = s.cfg.hdr :: rest →
      exec (.recv c len timeout) s =
        .next { s with rxq := rest, phase := .recvCmd, rdn := 1, rdbuf := [], elapsed := 0 }) ∧
    (∀ h rest, s.rxq = h :: rest → h ≠ s.cfg.hdr →
      exec (.recv c len timeout) s =
        .next { s with
          rxq := rest, rdbuf := [h], rto := s.cfg.defaultRto, rsp := some ⟨0x16000000, []⟩, txb := []
          phase := .resp }) ∧
    (s.rxq = [] → s.rto.toNat < s.elapsed.toNat →
      exec (.recv c len timeout) s =
        .next { s with rto := s.cfg.defaultRto, rsp := some ⟨0x56000000, []⟩, txb := [], phase := .resp }) ∧
    (s.rxq = [] → s.elapsed.toNat ≤ s.rto.toNat → exec (.recv c len timeout) s = .next s)

/-- R155, the count, with all else the command read does: RCMD and PCNT are written in the same step, which reads one byte; a frame too large
ends RECV there; with parameters to come the block read starts; with none, the checksum read starts or RECV answers. -/
def Obligations.RecvCommandStep : Prop :=
  ∀ (c : Bool) (len : Count) (timeout : Option Word) (s : State),
    s.phase = .recvCmd → Latched (.recv c len timeout) s → s.rdn = 1 → s.rdbuf = [] →
    (∀ cmd rest n, s.rxq = cmd :: rest →
      n = (match s.cfg.lenMode with
        | .negotiated => lookupCount s.cfg cmd
        | .declared => len) →
      (s.cfg.maxf.toNat < 2 + n.toNat + c.toNat →
        exec (.recv c len timeout) s =
          .next { s with
            rxq := rest, rdbuf := [cmd], rcmd := cmd, pcnt := n, rto := s.cfg.defaultRto
            rsp := some ⟨0x46000000, []⟩, txb := [], phase := .resp }) ∧
      (2 + n.toNat + c.toNat ≤ s.cfg.maxf.toNat → n ≠ 0 →
        exec (.recv c len timeout) s =
          .next { s with
            rxq := rest, rcmd := cmd, pcnt := n, phase := .recvPar, rdn := n, rdbuf := [], elapsed := 0 }) ∧
      (2 + n.toNat + c.toNat ≤ s.cfg.maxf.toNat → n = 0 → c = true →
        exec (.recv c len timeout) s =
          .next { s with
            rxq := rest, rcmd := cmd, pcnt := 0, pbuf := [], phase := .recvCks, rdn := 1, rdbuf := []
            elapsed := 0 }) ∧
      (2 + n.toNat + c.toNat ≤ s.cfg.maxf.toNat → n = 0 → c = false →
        exec (.recv c len timeout) s =
          .next { s with
            rxq := rest, rcmd := cmd, pcnt := 0, pbuf := [], rdn := 0, rdbuf := [], elapsed := 0
            rto := s.cfg.defaultRto, rsp := some ⟨responseWord .ok 6 cmd 0, []⟩, txb := [], phase := .resp })) ∧
    (s.rxq = [] → s.rto.toNat < s.elapsed.toNat →
      exec (.recv c len timeout) s =
        .next { s with rto := s.cfg.defaultRto, rsp := some ⟨0x56000000, []⟩, txb := [], phase := .resp }) ∧
    (s.rxq = [] → s.elapsed.toNat ≤ s.rto.toNat → exec (.recv c len timeout) s = .next s)

/-- The parameter read (R157): bytes go to RDBUF in arrival order; the last one writes PBUF and starts the checksum read, or
answers OK when there is no checksum; an expired read answers Incomplete and the bytes taken stay consumed. -/
def Obligations.RecvParameterStep : Prop :=
  ∀ (c : Bool) (len : Count) (timeout : Option Word) (s : State),
    s.phase = .recvPar → Latched (.recv c len timeout) s → s.rdbuf.length < s.rdn.toNat →
    (∀ b rest, s.rxq = b :: rest → s.rdbuf.length + 1 < s.rdn.toNat →
      exec (.recv c len timeout) s = .next { s with rxq := rest, rdbuf := s.rdbuf ++ [b] }) ∧
    (∀ b rest, s.rxq = b :: rest → s.rdbuf.length + 1 = s.rdn.toNat → c = true →
      exec (.recv c len timeout) s =
        .next { s with
          rxq := rest, pbuf := s.rdbuf ++ [b], phase := .recvCks, rdn := 1, rdbuf := [], elapsed := 0 }) ∧
    (∀ b rest, s.rxq = b :: rest → s.rdbuf.length + 1 = s.rdn.toNat → c = false →
      exec (.recv c len timeout) s =
        .next { s with
          rxq := rest, rdbuf := s.rdbuf ++ [b], pbuf := s.rdbuf ++ [b], rto := s.cfg.defaultRto
          rsp := some ⟨responseWord .ok 6 s.rcmd s.pcnt, s.rdbuf ++ [b]⟩, txb := [], phase := .resp }) ∧
    (s.rxq = [] → s.rto.toNat < s.elapsed.toNat →
      exec (.recv c len timeout) s =
        .next { s with rto := s.cfg.defaultRto, rsp := some ⟨0x56000000, []⟩, txb := [], phase := .resp }) ∧
    (s.rxq = [] → s.elapsed.toNat ≤ s.rto.toNat → exec (.recv c len timeout) s = .next s)

/-- The checksum read and the end of a checksummed RECV (R158, R159): the byte is compared with Fold(Window(HDR, RCMD, PBUF));
OK answers RCMD, PCNT and PBUF; a missing byte gives Incomplete, never ChecksumMismatch. -/
def Obligations.RecvCompletesAtTheChecksum : Prop :=
  ∀ (c : Bool) (len : Count) (timeout : Option Word) (s : State),
    s.phase = .recvCks → Latched (.recv c len timeout) s → s.rdn = 1 → s.rdbuf = [] →
    (∀ rest, s.rxq = fold (window s.cfg s.rcmd s.pbuf) :: rest →
      exec (.recv c len timeout) s =
        .next { s with
          rxq := rest, rdbuf := [fold (window s.cfg s.rcmd s.pbuf)], rto := s.cfg.defaultRto
          rsp := some ⟨responseWord .ok 6 s.rcmd s.pcnt, s.pbuf⟩, txb := [], phase := .resp }) ∧
    (∀ k rest, s.rxq = k :: rest → k ≠ fold (window s.cfg s.rcmd s.pbuf) →
      exec (.recv c len timeout) s =
        .next { s with
          rxq := rest, rdbuf := [k], rto := s.cfg.defaultRto
          rsp := some ⟨0x66000000, []⟩, txb := [], phase := .resp }) ∧
    (s.rxq = [] → s.rto.toNat < s.elapsed.toNat →
      exec (.recv c len timeout) s =
        .next { s with rto := s.cfg.defaultRto, rsp := some ⟨0x56000000, []⟩, txb := [], phase := .resp }) ∧
    (s.rxq = [] → s.elapsed.toNat ≤ s.rto.toNat → exec (.recv c len timeout) s = .next s)

/-- R160: every end of RECV writes RTO ← CFG.DEFAULT_RTO in the step that holds the response, and a reset restores it too. -/
def Obligations.EveryEndOfRecvRestoresTheTimeout : Prop :=
  (∀ (c : Bool) (len : Count) (timeout : Option Word) (s t : State),
    s.phase.isRecv = true → exec (.recv c len timeout) s = .next t → t.phase = .resp →
    t.rto = s.cfg.defaultRto ∧ t.rsp ≠ none) ∧
  (∀ (s : State) (es : List Event), ∃ t,
    step (s.scheduled (.assertReset :: es)) = .next t ∧ t.rto = t.cfg.defaultRto)

/-- The frame of RECV (the spec derives its last sentence in R168): nothing is written to TX, and TXACC, DISC, CFG, OPL and the
environment but rxq stay. -/
def Obligations.RecvFrame : Prop :=
  ∀ (c : Bool) (len : Count) (timeout : Option Word) (s t : State), exec (.recv c len timeout) s = .next t →
    t = { s with
      phase := t.phase, elapsed := t.elapsed, rto := t.rto, rcmd := t.rcmd, pcnt := t.pcnt, pbuf := t.pbuf, rdn := t.rdn
      rdbuf := t.rdbuf, rxq := t.rxq, rsp := t.rsp, txb := t.txb } ∧
    (t.txb = s.txb ∨ t.txb = []) ∧ (t.rxq = s.rxq ∨ ∃ b, s.rxq = b :: t.rxq)

/-- What the spec derives in R163: the bytes of a frame, at the front of the receiver's queue, give back the command and the
parameters, with and without a checksum, and what stands behind the frame stays queued. The number of steps is a fact about the
model's steps, one a byte (log entry 18); step counts are not normative. -/
def Obligations.ReceiveOfASentFrameReturnsIt : Prop :=
  ∀ (c : Bool) (cmd : Byte) (params rest : List Byte) (len : Count) (s : State),
    s.rst = false → s.phase = .idle →
    s.rxq = frameBytes s.cfg c cmd params ++ rest →
    (s.cfg.lenMode = .declared → len.toNat = params.length) →
    (s.cfg.lenMode = .negotiated → len = 0 ∧ (lookupCount s.cfg cmd).toNat = params.length) →
    2 + params.length + c.toNat ≤ s.cfg.maxf.toNat →
    ∃ u, steps (3 + params.length + c.toNat) (s.scheduled [.offer (encode (.recv c len none))]) = .next u ∧
      u.phase = .resp ∧ u.rxq = rest ∧
      u.rsp = some ⟨responseWord .ok 6 cmd (BitVec.ofNat 16 params.length), params⟩

/-- What the spec derives in R164: a RECV.C whose reads all complete answers ChecksumMismatch iff the byte received differs from
the fold of the window received, and OK otherwise. If the bytes received are those of a SEND.C frame with exactly one byte `x`
changed to `y`, and on R164's premises, that the header is unchanged (`pre` holds it) and that the parameter count found is the
sender's, it answers ChecksumMismatch. The number of steps is a fact about the model's steps, one a byte (log entry 18); step
counts are not normative. -/
def Obligations.ReceiveVerdictIsTheChecksumComparison : Prop :=
  (∀ (cmd k : Byte) (params rest : List Byte) (len : Count) (s : State),
    s.rst = false → s.phase = .idle →
    s.rxq = [s.cfg.hdr, cmd] ++ params ++ k :: rest →
    (s.cfg.lenMode = .declared → len.toNat = params.length) →
    (s.cfg.lenMode = .negotiated → len = 0 ∧ (lookupCount s.cfg cmd).toNat = params.length) →
    3 + params.length ≤ s.cfg.maxf.toNat →
    ∃ u, steps (4 + params.length) (s.scheduled [.offer (encode (.recv true len none))]) = .next u ∧
      u.phase = .resp ∧ u.rxq = rest ∧
      (k ≠ fold (window s.cfg cmd params) → u.rsp = some ⟨0x66000000, []⟩) ∧
      (k = fold (window s.cfg cmd params) →
        u.rsp = some ⟨responseWord .ok 6 cmd (BitVec.ofNat 16 params.length), params⟩)) ∧
  (∀ (cfg : Cfg) (cmd cmd' x y : Byte) (a l : List Byte),
    (x ≠ y → fold (window cfg cmd (a ++ x :: l)) ≠ fold (window cfg cmd (a ++ y :: l))) ∧
    (cmd ≠ cmd' → fold (window cfg cmd l) ≠ fold (window cfg cmd' l))) ∧
  (∀ (cmd x y : Byte) (params pre post rest : List Byte) (len : Count) (s : State),
    s.rst = false → s.phase = .idle →
    frameBytes s.cfg true cmd params = pre ++ x :: post → pre ≠ [] → x ≠ y →
    s.rxq = (pre ++ y :: post) ++ rest →
    (s.cfg.lenMode = .declared → len.toNat = params.length) →
    (s.cfg.lenMode = .negotiated →
      len = 0 ∧ ∀ c, (pre ++ y :: post)[1]? = some c → (lookupCount s.cfg c).toNat = params.length) →
    3 + params.length ≤ s.cfg.maxf.toNat →
    ∃ u, steps (4 + params.length) (s.scheduled [.offer (encode (.recv true len none))]) = .next u ∧
      u.phase = .resp ∧ u.rxq = rest ∧ u.rsp = some ⟨0x66000000, []⟩)

/-- What the spec derives in R162, for a RECV.C with an explicit timeout: a frame whose checksum byte never comes ends, after
RTO + 1 Ticks of the checksum read, with Incomplete. (RecvCompletesAtTheChecksum has the checksum read's step under every RTO.)
The number of steps is a fact about the model's steps, one a byte (log entry 18); step counts are not normative. -/
def Obligations.TruncatedFrameIsIncomplete : Prop :=
  ∀ (cmd : Byte) (params : List Byte) (len : Count) (limit : Word) (s : State),
    s.rst = false → s.phase = .idle → s.rxq = [s.cfg.hdr, cmd] ++ params →
    (s.cfg.lenMode = .declared → len.toNat = params.length) →
    (s.cfg.lenMode = .negotiated → len = 0 ∧ (lookupCount s.cfg cmd).toNat = params.length) →
    3 + params.length ≤ s.cfg.maxf.toNat →
    ∃ u, steps (1 + (2 + params.length) + (limit.toNat + 1) + 1) (s.scheduled (.offer (encode (.recv true len (some limit))) ::
          (List.replicate (2 + params.length) .core ++ List.replicate (limit.toNat + 1) .tick ++ [.core]))) =
        .next u ∧
      u.phase = .resp ∧ u.rsp = some ⟨0x56000000, []⟩ ∧ u.rxq = [] ∧ u.rto = s.cfg.defaultRto

/-! ### The machine: steps, reset, and rules over all commands -/

/-- In IDLE an offered transaction is latched and decoded, an illegal one answers, and a legal one runs (R203). In any other
phase no command can be offered (R203); that an offer scheduled there is dropped and changes nothing is the model's choice (log
entry 5). -/
def Obligations.StepRunsTheOfferedCommand : Prop :=
  (∀ (s : State) (t : Transaction) (es : List Event) (i : Instr),
    s.rst = false → s.phase = .idle → t.wf = true → decode s.cfg.lenMode t = .ok i →
    step (s.scheduled (.offer t :: es)) = exec i { s with opl := Opl.ofTransaction t, sched := es }) ∧
  (∀ (s : State) (t : Transaction) (es : List Event) (e : DecodeError),
    s.rst = false → s.phase = .idle → t.wf = true → decode s.cfg.lenMode t = .error e →
    step (s.scheduled (.offer t :: es)) =
      .next (raiseError .illegalCommand { s with opl := Opl.ofTransaction t, sched := es })) ∧
  (∀ (s : State) (t : Transaction) (es : List Event), s.phase ≠ .idle →
    step (s.scheduled (.offer t :: es)) = .next { s with sched := es })

/-- A step in the middle of an operation runs the latched command: a core step in the phases that read the RX queue, the TX
accept in a *_WR phase (R35, R61). That a core step scheduled in a *_WR phase, in IDLE or in RESP is dropped and changes nothing
is the model's choice (log entry 5). -/
def Obligations.StepContinuesTheLatchedCommand : Prop :=
  (∀ (s : State) (es : List Event) (i : Instr), s.rst = false → s.current = some i → s.phase.isRxWait = true →
    step (s.scheduled (.core :: es)) = exec i { s with sched := es } ∧
    step (s.scheduled []) = exec i { s with sched := [] }) ∧
  (∀ (s : State) (es : List Event) (i : Instr), s.rst = false → s.current = some i → s.phase.isWrite = true →
    s.txb ≠ [] →
    step (s.scheduled (.txAccept :: es)) = exec i { s with sched := es }) ∧
  (∀ (s : State) (es : List Event), s.phase.isRxWait = false →
    step (s.scheduled (.core :: es)) = .next { s with sched := es }) ∧
  (∀ (s : State) (mode : LenMode) (i : Instr), i.wf mode = true → Latched i s → s.phase ≠ .idle →
    s.phase ≠ .resp → ownPhase i s.phase = true → s.current = some i)

/-- Every failure of the block is a response: no step faults or refuses, from any state (R200, R211). -/
def Obligations.NoStepStopsTheMachine : Prop :=
  ∀ s : State, ∃ t, step s = .next t

/-- A meaning stops, with hostPortNotReady, exactly in the phases that are neither IDLE nor its own (R203: no command can be
offered there; the fault is the model's way to say so, log entry 9). -/
def Obligations.MeaningsStopOnlyOutsideTheirPhases : Prop :=
  ∀ (i : Instr) (s : State),
    (ownPhase i s.phase = true → ∃ t, exec i s = .next t) ∧
    (ownPhase i s.phase = false → exec i s = .fault .hostPortNotReady)

/-- Every step keeps the invariant of Safety.lean (R40, R41, R47, R48, R68, R96, R100, R152, R156, R230). -/
def Obligations.EveryStepKeepsTheInvariant : Prop :=
  ∀ s t : State, Inv s → step s = .next t → Inv t

/-- The invariant holds right after reset, whatever configuration was latched. -/
def Obligations.ResetSatisfiesTheInvariant : Prop :=
  (∀ c : Cfg, Inv (State.resetWith c)) ∧ Inv State.reset

/-- R45: after reset is asserted and released every register that has a reset value holds it, and rxq and txlog are unchanged.
PBUF and OPL are left out: the spec gives them none. -/
def Obligations.ResetValues : Prop :=
  ∀ (s : State) (es : List Event), ∃ t u,
    step (s.scheduled (.assertReset :: .releaseReset :: es)) = .next t ∧ step t = .next u ∧
    u.cfg = s.cfgIn ∧ u.phase = .idle ∧ u.rto = s.cfgIn.defaultRto ∧ u.elapsed = 0 ∧ u.txacc = 0 ∧ u.disc = 0 ∧
    u.rcmd = 0 ∧ u.pcnt = 0 ∧ u.rdn = 0 ∧ u.rdbuf = [] ∧ u.txb = [] ∧ u.rsp = none ∧
    u.rxq = s.rxq ∧ u.txlog = s.txlog ∧ u.rst = false ∧ u.sched = es

/-- R232, from any phase: the assertion of reset gives no response, discards a held one, drops a pending write without a txlog
entry and leaves rxq (what was consumed stays lost) and the accepted writes; while it is asserted no step but its release
changes a core register or adds a txlog entry, and RX arrivals still happen. -/
def Obligations.AssertedResetAbortsAndHoldsTheCore : Prop :=
  (∀ (s : State) (es : List Event), ∃ t,
    step (s.scheduled (.assertReset :: es)) = .next t ∧ t.rst = true ∧
    t.phase = .idle ∧ t.rto = t.cfg.defaultRto ∧ t.elapsed = 0 ∧ t.txacc = 0 ∧ t.disc = 0 ∧
    t.rcmd = 0 ∧ t.pcnt = 0 ∧ t.rdn = 0 ∧ t.rdbuf = [] ∧ t.txb = [] ∧ t.rsp = none ∧
    t.hostlog = s.hostlog ∧ t.txlog = s.txlog ∧ t.rxq = s.rxq) ∧
  (∀ (s t : State), s.rst = true → (nextEvent s).1 ≠ .assertReset → (nextEvent s).1 ≠ .releaseReset →
    step s = .next t → SameCore s t ∧ t.rst = true ∧ t.txlog = s.txlog) ∧
  (∀ (s : State) (b : Byte) (es : List Event), s.rst = true →
    ∃ t, step (s.scheduled (.rxArrive b false :: es)) = .next t ∧ t.rxq = s.rxq ++ [b])

/-- R231: the release of rst latches every field of the configuration inputs, sets RTO from it and enters IDLE; no other step of
any agent changes CFG. -/
def Obligations.OnlyTheReleaseOfResetWritesTheConfiguration : Prop :=
  (∀ (s : State) (es : List Event), s.rst = true → ∃ t,
    step (s.scheduled (.releaseReset :: es)) = .next t ∧
    t.cfg = s.cfgIn ∧ t.rto = t.cfg.defaultRto ∧ t.phase = .idle ∧ t.rst = false) ∧
  (∀ s t : State, step s = .next t → (nextEvent s).1 ≠ .releaseReset ∨ s.rst = false → t.cfg = s.cfg)

/-- CFG.RATE is presented once in the step that releases reset, after it is latched, and in no other step (R234). The list of
what was presented is the model's record of the configure output (log entry 7). -/
def Obligations.RateIsPresentedOnceAtTheRelease : Prop :=
  (∀ (s : State) (es : List Event), s.rst = true → ∃ t,
    step (s.scheduled (.releaseReset :: es)) = .next t ∧ t.configOut = s.configOut ++ [t.cfg.rate] ∧
    t.cfg.rate = s.cfgIn.rate) ∧
  (∀ s t : State, step s = .next t → (nextEvent s).1 ≠ .releaseReset ∨ s.rst = false → t.configOut = s.configOut)

/-- R29: a Tick adds one to ELAPSED, saturating, in every phase, and changes nothing else; every wait starts with ELAPSED = 0; a
wait with limit T has expired iff ELAPSED > T; its reset value is 0. -/
def Obligations.TicksCountAndWaitsStartAtZero : Prop :=
  (∀ (s : State) (es : List Event), s.rst = false → ∃ e : Ticks,
    e.toNat = min (s.elapsed.toNat + 1) (2 ^ 33 - 1) ∧
    step (s.scheduled (.tick :: es)) = .next { s with elapsed := e, sched := es }) ∧
  (∀ (i : Instr) (s t : State), exec i s = .next t → t.phase ≠ s.phase → t.phase.isRxWait = true → t.elapsed = 0) ∧
  (∀ (limit : Word) (e : Ticks), expired limit e = true ↔ limit.toNat < e.toNat) ∧
  (∀ (s : State) (es : List Event), ∃ t, step (s.scheduled (.assertReset :: es)) = .next t ∧ t.elapsed = 0)

/-- The whole-machine form of R31: TXACC changes only in the TX accept of RAWHC or RAWDAT and at reset. -/
def Obligations.OnlyRawWritesAndResetChangeTheAccumulator : Prop :=
  ∀ s t : State, step s = .next t → t.txacc ≠ s.txacc →
    ((nextEvent s).1 = .txAccept ∧ (s.phase = .rawhcWr ∨ s.phase = .rawdatWr)) ∨
    (nextEvent s).1 = .assertReset ∨ (nextEvent s).1 = .releaseReset

/-- The whole-machine form of R30: RTO changes only when a RECV with T = 1 is accepted, when a RECV ends, and at reset. -/
def Obligations.OnlyRecvAndResetChangeTheTimeout : Prop :=
  ∀ s t : State, step s = .next t → t.rto ≠ s.rto →
    (s.phase = .idle ∧ t.phase = .recvHdr ∧ t.opl.t = true ∧ some t.rto = t.opl.timeout) ∨
    (s.phase.isRecv = true ∧ t.phase = .resp ∧ t.rto = s.cfg.defaultRto) ∨
    (nextEvent s).1 = .assertReset ∨ (nextEvent s).1 = .releaseReset

/-- R51: the RX queue is a FIFO: a step leaves it, appends one byte at its tail (an arrival only), or removes its head (the core
only). -/
def Obligations.RxQueueIsFirstInFirstOut : Prop :=
  ∀ s t : State, step s = .next t →
    t.rxq = s.rxq ∨
    (∃ b lose, (nextEvent s).1 = .rxArrive b lose ∧ t.rxq = s.rxq ++ [b]) ∨
    (∃ b, (nextEvent s).1 = .core ∧ s.rxq = b :: t.rxq)

/-- R55: an arrival appends its byte in any phase and during reset; a full queue of finite capacity may drop it instead; nothing
else changes. -/
def Obligations.ArrivalAppendsOrAFullQueueDrops : Prop :=
  ∀ (s : State) (b : Byte) (lose : Bool) (es : List Event),
    ((lose = false ∨ s.rxcap ≠ some s.rxq.length) →
      step (s.scheduled (.rxArrive b lose :: es)) = .next { s with rxq := s.rxq ++ [b], sched := es }) ∧
    (lose = true → s.rxcap = some s.rxq.length →
      step (s.scheduled (.rxArrive b lose :: es)) = .next { s with sched := es })

/-- R61 over all steps: txlog grows by the pending write in a TX accept, which needs TXB ≠ [ ], and by nothing else; nothing
removes an entry. -/
def Obligations.TxLogGrowsByWholeWrites : Prop :=
  ∀ s t : State, step s = .next t →
    t.txlog = s.txlog ∨
    ((nextEvent s).1 = .txAccept ∧ s.txb ≠ [] ∧ t.txlog = s.txlog ++ [s.txb])

/-- In RESP the Host takes the response and the core is IDLE; until then, whatever else happens but reset, the core stays in RESP
with the response held (R206). The list of taken responses is the model's record of what the Host receives (log entry 7). -/
def Obligations.ResponseIsHeldUntilTaken : Prop :=
  (∀ (s : State) (r : Response) (es : List Event), s.rst = false → s.phase = .resp → s.rsp = some r →
    step (s.scheduled (.hostTake :: es)) =
      .next { s with rsp := none, phase := .idle, hostlog := s.hostlog ++ [r], sched := es }) ∧
  (∀ s t : State, s.rst = false → s.phase = .resp → step s = .next t →
    (nextEvent s).1 ≠ .hostTake → (nextEvent s).1 ≠ .assertReset → t.phase = .resp ∧ t.rsp = s.rsp)

/-- A write has no timeout (R60, R251): through any number of steps without a TX accept or a reset, the core stays in its *_WR
phase with the same write offered and no txlog entry added. -/
def Obligations.UnacceptedWriteWaitsForEver : Prop :=
  ∀ (es : List Event) (s : State), s.rst = false → s.phase.isWrite = true →
    (∀ e ∈ es, e ≠ .txAccept ∧ e ≠ .assertReset) →
    ∃ u, steps es.length (s.scheduled es) = .next u ∧
      u.phase = s.phase ∧ u.txb = s.txb ∧ u.txlog = s.txlog ∧ u.rsp = s.rsp

/-- An error is precise (R208): a step that holds a response with an error status writes nothing to TX and leaves TXACC
and CFG; the response carries no data. -/
def Obligations.ErrorResponsesWriteNothing : Prop :=
  ∀ (s t : State) (r : Response), step s = .next t → s.rsp = none → t.rsp = some r →
    Status.ofCode r.statusField ≠ some .ok →
    t.txlog = s.txlog ∧ t.txacc = s.txacc ∧ t.cfg = s.cfg ∧ r.payload = [] ∧ r.resultField = 0 ∧ r.countField = 0

/-- The OPL and PBUF that IDLE holds, the two registers whose reset value the spec leaves open, are read by no step (R34, R38,
R45). Changing both before a step out of IDLE changes nothing after it but the registers themselves, and not OPL once a command
is accepted. PBUF's old value may last into a RECV: in every phase but RECV_CKS, changing PBUF before a step leaves the state
after it equal, or different in PBUF alone and still not in RECV_CKS. -/
def Obligations.OplAndPbufAreNotReadInIdle : Prop :=
  (∀ (s t : State) (o : Opl) (p : List Byte), s.phase = .idle → step s = .next t →
    ∃ t', step { s with opl := o, pbuf := p } = .next t' ∧
      t' = { t with opl := t'.opl, pbuf := t'.pbuf } ∧
      (t.phase ≠ .idle → t'.opl = t.opl) ∧ (t'.opl = t.opl ∨ (t.opl = s.opl ∧ t'.opl = o)) ∧
      (t'.pbuf = t.pbuf ∨ (t.pbuf = s.pbuf ∧ t'.pbuf = p))) ∧
  (∀ (s t : State) (p : List Byte), s.phase ≠ .recvCks → step s = .next t →
    ∃ t', step { s with pbuf := p } = .next t' ∧
      (t' = t ∨ (t' = { t with pbuf := p } ∧ t.pbuf = s.pbuf ∧ t.phase ≠ .recvCks)))
end

