-- ==== Sys2Proof/Laws/Encoding.lean ====
section
/-! SUPPORT. The fields of a descriptor: read back from one that was built, and rebuilt from those that were read. -/

namespace Sys2Proof

theorem descOp_mkDesc (op : BitVec 4) (c t : Bool) (cmd : Byte) (len : Count) : descOp (mkDesc op c t cmd len) = op := by
  ext i hi
  obtain rfl | rfl | rfl | rfl : i = 0 ∨ i = 1 ∨ i = 2 ∨ i = 3 := by omega
  all_goals simp [descOp, mkDesc]

theorem descC_mkDesc (op : BitVec 4) (c t : Bool) (cmd : Byte) (len : Count) : descC (mkDesc op c t cmd len) = c := by
  simp [descC, mkDesc]

theorem descT_mkDesc (op : BitVec 4) (c t : Bool) (cmd : Byte) (len : Count) : descT (mkDesc op c t cmd len) = t := by
  simp [descT, mkDesc]

theorem descRes_mkDesc (op : BitVec 4) (c t : Bool) (cmd : Byte) (len : Count) : descRes (mkDesc op c t cmd len) = 0 := by
  ext i hi
  obtain rfl | rfl : i = 0 ∨ i = 1 := by omega
  all_goals simp [descRes, mkDesc]

theorem descCmd_mkDesc (op : BitVec 4) (c t : Bool) (cmd : Byte) (len : Count) : descCmd (mkDesc op c t cmd len) = cmd := by
  ext i hi
  obtain rfl | rfl | rfl | rfl | rfl | rfl | rfl | rfl :
      i = 0 ∨ i = 1 ∨ i = 2 ∨ i = 3 ∨ i = 4 ∨ i = 5 ∨ i = 6 ∨ i = 7 := by omega
  all_goals simp [descCmd, mkDesc]

theorem descLen_mkDesc (op : BitVec 4) (c t : Bool) (cmd : Byte) (len : Count) : descLen (mkDesc op c t cmd len) = len := by
  ext i hi
  have h1 : i < 32 := by omega
  have h2 : i < 28 := by omega
  have h3 : i < 27 := by omega
  have h4 : i < 26 := by omega
  simp [descLen, mkDesc, h1, h2, h3, h4, hi]

/-- A row that selects a descriptor fixes the masked bits (R94). -/
theorem selects_iff (r : OpRow) (d : Word) : r.selects d = true ↔ d &&& r.mask = r.pattern := by
  simp [OpRow.selects]

theorem lenOf_toNat {l : List Byte} (h : payloadFits l = true) : (lenOf l).toNat = l.length := by
  have h : l.length ≤ 65535 := by simpa [payloadFits] using h
  simp only [lenOf, BitVec.toNat_ofNat]
  omega

end Sys2Proof
end

