-- ==== Sys2Proof/Laws/State.lean ====
section
/-! SUPPORT. What each named update of the state does to each field, one lemma per field per update, so that no later
proof unfolds a record update. -/

namespace Sys2Proof.Machine

/-! ### respond -/

section
variable (st : Status) (r : Byte) (n : Count) (pl : List Byte) (s : State)

@[simp] theorem respond_cfg : (respond st r n pl s).cfg = s.cfg := rfl
@[simp] theorem respond_phase : (respond st r n pl s).phase = .resp := rfl
@[simp] theorem respond_elapsed : (respond st r n pl s).elapsed = s.elapsed := rfl
@[simp] theorem respond_rto : (respond st r n pl s).rto = s.rto := rfl
@[simp] theorem respond_txacc : (respond st r n pl s).txacc = s.txacc := rfl
@[simp] theorem respond_disc : (respond st r n pl s).disc = s.disc := rfl
@[simp] theorem respond_opl : (respond st r n pl s).opl = s.opl := rfl
@[simp] theorem respond_rcmd : (respond st r n pl s).rcmd = s.rcmd := rfl
@[simp] theorem respond_pcnt : (respond st r n pl s).pcnt = s.pcnt := rfl
@[simp] theorem respond_pbuf : (respond st r n pl s).pbuf = s.pbuf := rfl
@[simp] theorem respond_rdn : (respond st r n pl s).rdn = s.rdn := rfl
@[simp] theorem respond_rdbuf : (respond st r n pl s).rdbuf = s.rdbuf := rfl
@[simp] theorem respond_txb : (respond st r n pl s).txb = [] := rfl
@[simp] theorem respond_rsp : (respond st r n pl s).rsp = some ⟨responseWord st s.opl.op r n, pl⟩ := rfl
@[simp] theorem respond_rxq : (respond st r n pl s).rxq = s.rxq := rfl
@[simp] theorem respond_txlog : (respond st r n pl s).txlog = s.txlog := rfl
@[simp] theorem respond_rxcap : (respond st r n pl s).rxcap = s.rxcap := rfl
@[simp] theorem respond_rst : (respond st r n pl s).rst = s.rst := rfl
@[simp] theorem respond_cfgIn : (respond st r n pl s).cfgIn = s.cfgIn := rfl
@[simp] theorem respond_configOut : (respond st r n pl s).configOut = s.configOut := rfl
@[simp] theorem respond_hostlog : (respond st r n pl s).hostlog = s.hostlog := rfl
@[simp] theorem respond_sched : (respond st r n pl s).sched = s.sched := rfl

end

/-! ### finishRecv -/

section
variable (st : Status) (r : Byte) (n : Count) (pl : List Byte) (s : State)

@[simp] theorem finishRecv_cfg : (finishRecv st r n pl s).cfg = s.cfg := rfl
@[simp] theorem finishRecv_phase : (finishRecv st r n pl s).phase = .resp := rfl
@[simp] theorem finishRecv_elapsed : (finishRecv st r n pl s).elapsed = s.elapsed := rfl
@[simp] theorem finishRecv_rto : (finishRecv st r n pl s).rto = s.cfg.defaultRto := rfl
@[simp] theorem finishRecv_txacc : (finishRecv st r n pl s).txacc = s.txacc := rfl
@[simp] theorem finishRecv_disc : (finishRecv st r n pl s).disc = s.disc := rfl
@[simp] theorem finishRecv_opl : (finishRecv st r n pl s).opl = s.opl := rfl
@[simp] theorem finishRecv_rcmd : (finishRecv st r n pl s).rcmd = s.rcmd := rfl
@[simp] theorem finishRecv_pcnt : (finishRecv st r n pl s).pcnt = s.pcnt := rfl
@[simp] theorem finishRecv_pbuf : (finishRecv st r n pl s).pbuf = s.pbuf := rfl
@[simp] theorem finishRecv_rdn : (finishRecv st r n pl s).rdn = s.rdn := rfl
@[simp] theorem finishRecv_rdbuf : (finishRecv st r n pl s).rdbuf = s.rdbuf := rfl
@[simp] theorem finishRecv_txb : (finishRecv st r n pl s).txb = [] := rfl
@[simp] theorem finishRecv_rsp : (finishRecv st r n pl s).rsp = some ⟨responseWord st s.opl.op r n, pl⟩ := rfl
@[simp] theorem finishRecv_rxq : (finishRecv st r n pl s).rxq = s.rxq := rfl
@[simp] theorem finishRecv_txlog : (finishRecv st r n pl s).txlog = s.txlog := rfl
@[simp] theorem finishRecv_rxcap : (finishRecv st r n pl s).rxcap = s.rxcap := rfl
@[simp] theorem finishRecv_rst : (finishRecv st r n pl s).rst = s.rst := rfl
@[simp] theorem finishRecv_cfgIn : (finishRecv st r n pl s).cfgIn = s.cfgIn := rfl
@[simp] theorem finishRecv_configOut : (finishRecv st r n pl s).configOut = s.configOut := rfl
@[simp] theorem finishRecv_hostlog : (finishRecv st r n pl s).hostlog = s.hostlog := rfl
@[simp] theorem finishRecv_sched : (finishRecv st r n pl s).sched = s.sched := rfl

end

/-! ### offerWrite -/

section
variable (p : Phase) (l : List Byte) (s : State)

@[simp] theorem offerWrite_cfg : (offerWrite p l s).cfg = s.cfg := rfl
@[simp] theorem offerWrite_phase : (offerWrite p l s).phase = p := rfl
@[simp] theorem offerWrite_elapsed : (offerWrite p l s).elapsed = s.elapsed := rfl
@[simp] theorem offerWrite_rto : (offerWrite p l s).rto = s.rto := rfl
@[simp] theorem offerWrite_txacc : (offerWrite p l s).txacc = s.txacc := rfl
@[simp] theorem offerWrite_disc : (offerWrite p l s).disc = s.disc := rfl
@[simp] theorem offerWrite_opl : (offerWrite p l s).opl = s.opl := rfl
@[simp] theorem offerWrite_rcmd : (offerWrite p l s).rcmd = s.rcmd := rfl
@[simp] theorem offerWrite_pcnt : (offerWrite p l s).pcnt = s.pcnt := rfl
@[simp] theorem offerWrite_pbuf : (offerWrite p l s).pbuf = s.pbuf := rfl
@[simp] theorem offerWrite_rdn : (offerWrite p l s).rdn = s.rdn := rfl
@[simp] theorem offerWrite_rdbuf : (offerWrite p l s).rdbuf = s.rdbuf := rfl
@[simp] theorem offerWrite_txb : (offerWrite p l s).txb = l := rfl
@[simp] theorem offerWrite_rsp : (offerWrite p l s).rsp = s.rsp := rfl
@[simp] theorem offerWrite_rxq : (offerWrite p l s).rxq = s.rxq := rfl
@[simp] theorem offerWrite_txlog : (offerWrite p l s).txlog = s.txlog := rfl
@[simp] theorem offerWrite_rxcap : (offerWrite p l s).rxcap = s.rxcap := rfl
@[simp] theorem offerWrite_rst : (offerWrite p l s).rst = s.rst := rfl
@[simp] theorem offerWrite_cfgIn : (offerWrite p l s).cfgIn = s.cfgIn := rfl
@[simp] theorem offerWrite_configOut : (offerWrite p l s).configOut = s.configOut := rfl
@[simp] theorem offerWrite_hostlog : (offerWrite p l s).hostlog = s.hostlog := rfl
@[simp] theorem offerWrite_sched : (offerWrite p l s).sched = s.sched := rfl

end

/-! ### acceptWrite -/

section
variable (s : State)

@[simp] theorem acceptWrite_cfg : (acceptWrite s).cfg = s.cfg := rfl
@[simp] theorem acceptWrite_phase : (acceptWrite s).phase = s.phase := rfl
@[simp] theorem acceptWrite_elapsed : (acceptWrite s).elapsed = s.elapsed := rfl
@[simp] theorem acceptWrite_rto : (acceptWrite s).rto = s.rto := rfl
@[simp] theorem acceptWrite_txacc : (acceptWrite s).txacc = s.txacc := rfl
@[simp] theorem acceptWrite_disc : (acceptWrite s).disc = s.disc := rfl
@[simp] theorem acceptWrite_opl : (acceptWrite s).opl = s.opl := rfl
@[simp] theorem acceptWrite_rcmd : (acceptWrite s).rcmd = s.rcmd := rfl
@[simp] theorem acceptWrite_pcnt : (acceptWrite s).pcnt = s.pcnt := rfl
@[simp] theorem acceptWrite_pbuf : (acceptWrite s).pbuf = s.pbuf := rfl
@[simp] theorem acceptWrite_rdn : (acceptWrite s).rdn = s.rdn := rfl
@[simp] theorem acceptWrite_rdbuf : (acceptWrite s).rdbuf = s.rdbuf := rfl
@[simp] theorem acceptWrite_txb : (acceptWrite s).txb = [] := rfl
@[simp] theorem acceptWrite_rsp : (acceptWrite s).rsp = s.rsp := rfl
@[simp] theorem acceptWrite_rxq : (acceptWrite s).rxq = s.rxq := rfl
@[simp] theorem acceptWrite_txlog : (acceptWrite s).txlog = s.txlog ++ [s.txb] := rfl
@[simp] theorem acceptWrite_rxcap : (acceptWrite s).rxcap = s.rxcap := rfl
@[simp] theorem acceptWrite_rst : (acceptWrite s).rst = s.rst := rfl
@[simp] theorem acceptWrite_cfgIn : (acceptWrite s).cfgIn = s.cfgIn := rfl
@[simp] theorem acceptWrite_configOut : (acceptWrite s).configOut = s.configOut := rfl
@[simp] theorem acceptWrite_hostlog : (acceptWrite s).hostlog = s.hostlog := rfl
@[simp] theorem acceptWrite_sched : (acceptWrite s).sched = s.sched := rfl

end

/-! ### startRead -/

section
variable (n : Count) (s : State)

@[simp] theorem startRead_cfg : (startRead n s).cfg = s.cfg := rfl
@[simp] theorem startRead_phase : (startRead n s).phase = s.phase := rfl
@[simp] theorem startRead_elapsed : (startRead n s).elapsed = 0 := rfl
@[simp] theorem startRead_rto : (startRead n s).rto = s.rto := rfl
@[simp] theorem startRead_txacc : (startRead n s).txacc = s.txacc := rfl
@[simp] theorem startRead_disc : (startRead n s).disc = s.disc := rfl
@[simp] theorem startRead_opl : (startRead n s).opl = s.opl := rfl
@[simp] theorem startRead_rcmd : (startRead n s).rcmd = s.rcmd := rfl
@[simp] theorem startRead_pcnt : (startRead n s).pcnt = s.pcnt := rfl
@[simp] theorem startRead_pbuf : (startRead n s).pbuf = s.pbuf := rfl
@[simp] theorem startRead_rdn : (startRead n s).rdn = n := rfl
@[simp] theorem startRead_rdbuf : (startRead n s).rdbuf = [] := rfl
@[simp] theorem startRead_txb : (startRead n s).txb = s.txb := rfl
@[simp] theorem startRead_rsp : (startRead n s).rsp = s.rsp := rfl
@[simp] theorem startRead_rxq : (startRead n s).rxq = s.rxq := rfl
@[simp] theorem startRead_txlog : (startRead n s).txlog = s.txlog := rfl
@[simp] theorem startRead_rxcap : (startRead n s).rxcap = s.rxcap := rfl
@[simp] theorem startRead_rst : (startRead n s).rst = s.rst := rfl
@[simp] theorem startRead_cfgIn : (startRead n s).cfgIn = s.cfgIn := rfl
@[simp] theorem startRead_configOut : (startRead n s).configOut = s.configOut := rfl
@[simp] theorem startRead_hostlog : (startRead n s).hostlog = s.hostlog := rfl
@[simp] theorem startRead_sched : (startRead n s).sched = s.sched := rfl

end

/-! ### latch -/

section
variable (t : Transaction) (s : State)

@[simp] theorem latch_cfg : (latch t s).cfg = s.cfg := rfl
@[simp] theorem latch_phase : (latch t s).phase = s.phase := rfl
@[simp] theorem latch_elapsed : (latch t s).elapsed = s.elapsed := rfl
@[simp] theorem latch_rto : (latch t s).rto = s.rto := rfl
@[simp] theorem latch_txacc : (latch t s).txacc = s.txacc := rfl
@[simp] theorem latch_disc : (latch t s).disc = s.disc := rfl
@[simp] theorem latch_opl : (latch t s).opl = Opl.ofTransaction t := rfl
@[simp] theorem latch_rcmd : (latch t s).rcmd = s.rcmd := rfl
@[simp] theorem latch_pcnt : (latch t s).pcnt = s.pcnt := rfl
@[simp] theorem latch_pbuf : (latch t s).pbuf = s.pbuf := rfl
@[simp] theorem latch_rdn : (latch t s).rdn = s.rdn := rfl
@[simp] theorem latch_rdbuf : (latch t s).rdbuf = s.rdbuf := rfl
@[simp] theorem latch_txb : (latch t s).txb = s.txb := rfl
@[simp] theorem latch_rsp : (latch t s).rsp = s.rsp := rfl
@[simp] theorem latch_rxq : (latch t s).rxq = s.rxq := rfl
@[simp] theorem latch_txlog : (latch t s).txlog = s.txlog := rfl
@[simp] theorem latch_rxcap : (latch t s).rxcap = s.rxcap := rfl
@[simp] theorem latch_rst : (latch t s).rst = s.rst := rfl
@[simp] theorem latch_cfgIn : (latch t s).cfgIn = s.cfgIn := rfl
@[simp] theorem latch_configOut : (latch t s).configOut = s.configOut := rfl
@[simp] theorem latch_hostlog : (latch t s).hostlog = s.hostlog := rfl
@[simp] theorem latch_sched : (latch t s).sched = s.sched := rfl

end

/-! ### scheduled -/

section
variable (s : State) (es : List Event)

@[simp] theorem scheduled_cfg : (s.scheduled es).cfg = s.cfg := rfl
@[simp] theorem scheduled_phase : (s.scheduled es).phase = s.phase := rfl
@[simp] theorem scheduled_elapsed : (s.scheduled es).elapsed = s.elapsed := rfl
@[simp] theorem scheduled_rto : (s.scheduled es).rto = s.rto := rfl
@[simp] theorem scheduled_txacc : (s.scheduled es).txacc = s.txacc := rfl
@[simp] theorem scheduled_disc : (s.scheduled es).disc = s.disc := rfl
@[simp] theorem scheduled_opl : (s.scheduled es).opl = s.opl := rfl
@[simp] theorem scheduled_rcmd : (s.scheduled es).rcmd = s.rcmd := rfl
@[simp] theorem scheduled_pcnt : (s.scheduled es).pcnt = s.pcnt := rfl
@[simp] theorem scheduled_pbuf : (s.scheduled es).pbuf = s.pbuf := rfl
@[simp] theorem scheduled_rdn : (s.scheduled es).rdn = s.rdn := rfl
@[simp] theorem scheduled_rdbuf : (s.scheduled es).rdbuf = s.rdbuf := rfl
@[simp] theorem scheduled_txb : (s.scheduled es).txb = s.txb := rfl
@[simp] theorem scheduled_rsp : (s.scheduled es).rsp = s.rsp := rfl
@[simp] theorem scheduled_rxq : (s.scheduled es).rxq = s.rxq := rfl
@[simp] theorem scheduled_txlog : (s.scheduled es).txlog = s.txlog := rfl
@[simp] theorem scheduled_rxcap : (s.scheduled es).rxcap = s.rxcap := rfl
@[simp] theorem scheduled_rst : (s.scheduled es).rst = s.rst := rfl
@[simp] theorem scheduled_cfgIn : (s.scheduled es).cfgIn = s.cfgIn := rfl
@[simp] theorem scheduled_configOut : (s.scheduled es).configOut = s.configOut := rfl
@[simp] theorem scheduled_hostlog : (s.scheduled es).hostlog = s.hostlog := rfl
@[simp] theorem scheduled_sched : (s.scheduled es).sched = es := rfl

end

/-! ### coreReset -/

section
variable (s : State)

@[simp] theorem coreReset_cfg : (coreReset s).cfg = s.cfg := rfl
@[simp] theorem coreReset_phase : (coreReset s).phase = .idle := rfl
@[simp] theorem coreReset_elapsed : (coreReset s).elapsed = 0 := rfl
@[simp] theorem coreReset_rto : (coreReset s).rto = s.cfg.defaultRto := rfl
@[simp] theorem coreReset_txacc : (coreReset s).txacc = 0 := rfl
@[simp] theorem coreReset_disc : (coreReset s).disc = 0 := rfl
@[simp] theorem coreReset_opl : (coreReset s).opl = Opl.reset := rfl
@[simp] theorem coreReset_rcmd : (coreReset s).rcmd = 0 := rfl
@[simp] theorem coreReset_pcnt : (coreReset s).pcnt = 0 := rfl
@[simp] theorem coreReset_pbuf : (coreReset s).pbuf = [] := rfl
@[simp] theorem coreReset_rdn : (coreReset s).rdn = 0 := rfl
@[simp] theorem coreReset_rdbuf : (coreReset s).rdbuf = [] := rfl
@[simp] theorem coreReset_txb : (coreReset s).txb = [] := rfl
@[simp] theorem coreReset_rsp : (coreReset s).rsp = none := rfl
@[simp] theorem coreReset_rxq : (coreReset s).rxq = s.rxq := rfl
@[simp] theorem coreReset_txlog : (coreReset s).txlog = s.txlog := rfl
@[simp] theorem coreReset_rxcap : (coreReset s).rxcap = s.rxcap := rfl
@[simp] theorem coreReset_rst : (coreReset s).rst = s.rst := rfl
@[simp] theorem coreReset_cfgIn : (coreReset s).cfgIn = s.cfgIn := rfl
@[simp] theorem coreReset_configOut : (coreReset s).configOut = s.configOut := rfl
@[simp] theorem coreReset_hostlog : (coreReset s).hostlog = s.hostlog := rfl
@[simp] theorem coreReset_sched : (coreReset s).sched = s.sched := rfl

end

/-! ### assertReset -/

section
variable (s : State)

@[simp] theorem assertReset_cfg : (assertReset s).cfg = s.cfg := rfl
@[simp] theorem assertReset_phase : (assertReset s).phase = .idle := rfl
@[simp] theorem assertReset_elapsed : (assertReset s).elapsed = 0 := rfl
@[simp] theorem assertReset_rto : (assertReset s).rto = s.cfg.defaultRto := rfl
@[simp] theorem assertReset_txacc : (assertReset s).txacc = 0 := rfl
@[simp] theorem assertReset_disc : (assertReset s).disc = 0 := rfl
@[simp] theorem assertReset_opl : (assertReset s).opl = Opl.reset := rfl
@[simp] theorem assertReset_rcmd : (assertReset s).rcmd = 0 := rfl
@[simp] theorem assertReset_pcnt : (assertReset s).pcnt = 0 := rfl
@[simp] theorem assertReset_pbuf : (assertReset s).pbuf = [] := rfl
@[simp] theorem assertReset_rdn : (assertReset s).rdn = 0 := rfl
@[simp] theorem assertReset_rdbuf : (assertReset s).rdbuf = [] := rfl
@[simp] theorem assertReset_txb : (assertReset s).txb = [] := rfl
@[simp] theorem assertReset_rsp : (assertReset s).rsp = none := rfl
@[simp] theorem assertReset_rxq : (assertReset s).rxq = s.rxq := rfl
@[simp] theorem assertReset_txlog : (assertReset s).txlog = s.txlog := rfl
@[simp] theorem assertReset_rxcap : (assertReset s).rxcap = s.rxcap := rfl
@[simp] theorem assertReset_rst : (assertReset s).rst = true := rfl
@[simp] theorem assertReset_cfgIn : (assertReset s).cfgIn = s.cfgIn := rfl
@[simp] theorem assertReset_configOut : (assertReset s).configOut = s.configOut := rfl
@[simp] theorem assertReset_hostlog : (assertReset s).hostlog = s.hostlog := rfl
@[simp] theorem assertReset_sched : (assertReset s).sched = s.sched := rfl

end

/-! ### releaseReset -/

section
variable (s : State)

@[simp] theorem releaseReset_cfg : (releaseReset s).cfg = s.cfgIn := rfl
@[simp] theorem releaseReset_phase : (releaseReset s).phase = .idle := rfl
@[simp] theorem releaseReset_elapsed : (releaseReset s).elapsed = 0 := rfl
@[simp] theorem releaseReset_rto : (releaseReset s).rto = s.cfgIn.defaultRto := rfl
@[simp] theorem releaseReset_txacc : (releaseReset s).txacc = 0 := rfl
@[simp] theorem releaseReset_disc : (releaseReset s).disc = 0 := rfl
@[simp] theorem releaseReset_opl : (releaseReset s).opl = Opl.reset := rfl
@[simp] theorem releaseReset_rcmd : (releaseReset s).rcmd = 0 := rfl
@[simp] theorem releaseReset_pcnt : (releaseReset s).pcnt = 0 := rfl
@[simp] theorem releaseReset_pbuf : (releaseReset s).pbuf = [] := rfl
@[simp] theorem releaseReset_rdn : (releaseReset s).rdn = 0 := rfl
@[simp] theorem releaseReset_rdbuf : (releaseReset s).rdbuf = [] := rfl
@[simp] theorem releaseReset_txb : (releaseReset s).txb = [] := rfl
@[simp] theorem releaseReset_rsp : (releaseReset s).rsp = none := rfl
@[simp] theorem releaseReset_rxq : (releaseReset s).rxq = s.rxq := rfl
@[simp] theorem releaseReset_txlog : (releaseReset s).txlog = s.txlog := rfl
@[simp] theorem releaseReset_rxcap : (releaseReset s).rxcap = s.rxcap := rfl
@[simp] theorem releaseReset_rst : (releaseReset s).rst = false := rfl
@[simp] theorem releaseReset_cfgIn : (releaseReset s).cfgIn = s.cfgIn := rfl
@[simp] theorem releaseReset_configOut : (releaseReset s).configOut = s.configOut ++ [s.cfgIn.rate] := rfl
@[simp] theorem releaseReset_hostlog : (releaseReset s).hostlog = s.hostlog := rfl
@[simp] theorem releaseReset_sched : (releaseReset s).sched = s.sched := rfl

end

end Sys2Proof.Machine
end

