-- ==== Sys2Proof/Laws/Ops.lean ====
section
/-! SUPPORT. One specification lemma for each shared operation and each meaning: everything it can do, so that later
proofs cite it instead of unfolding it. -/

namespace Sys2Proof.Machine

/-! ### Checksum, sizes and counters -/

@[simp] theorem fold_nil : fold [] = 0 := rfl

@[simp] theorem fold_cons (b : Byte) (l : List Byte) : fold (b :: l) = b ^^^ fold l := rfl

theorem window_included {cfg : Cfg} (h : cfg.ckWin = .hdrIncluded) (cmd : Byte) (p : List Byte) :
    window cfg cmd p = cfg.hdr :: cmd :: p := by simp [window, h]

theorem window_excluded {cfg : Cfg} (h : cfg.ckWin = .hdrExcluded) (cmd : Byte) (p : List Byte) :
    window cfg cmd p = cmd :: p := by simp [window, h]

theorem frameLength_eq (n : Nat) (c : Bool) : frameLength n c = 2 + n + c.toNat := by
  cases c <;> rfl

theorem admissible_iff (cfg : Cfg) (n : Nat) (c : Bool) :
    admissible cfg n c = true ↔ 2 + n + c.toNat ≤ cfg.maxf.toNat := by simp [admissible, frameLength_eq]

theorem admissible_eq_false_iff (cfg : Cfg) (n : Nat) (c : Bool) :
    admissible cfg n c = false ↔ cfg.maxf.toNat < 2 + n + c.toNat := by simp [admissible, frameLength_eq]

theorem tickCount_toNat (e : Ticks) : (tickCount e).toNat = min (e.toNat + 1) (2 ^ 33 - 1) := by
  have h := e.isLt
  unfold tickCount
  split
  · next he => subst he; rfl
  · next he =>
    have hne : e.toNat ≠ 2 ^ 33 - 1 := fun hc => he (BitVec.eq_of_toNat_eq (by simpa using hc))
    simp only [BitVec.toNat_add, show (1 : Ticks).toNat = 1 from rfl]
    omega

theorem discardCount_toNat (d : Count) : (discardCount d).toNat = min (d.toNat + 1) 65535 := by
  have h := d.isLt
  unfold discardCount
  split
  · next he => subst he; rfl
  · next he =>
    have hne : d.toNat ≠ 65535 := fun hc => he (BitVec.eq_of_toNat_eq (by simpa using hc))
    simp only [BitVec.toNat_add, show (1 : Count).toNat = 1 from rfl]
    omega

theorem expired_eq_decide (limit : Word) (e : Ticks) : expired limit e = decide (limit.toNat < e.toNat) := by
  have h := limit.isLt
  have hm : limit.toNat % 8589934592 = limit.toNat := Nat.mod_eq_of_lt (by omega)
  simp [expired, BitVec.lt_def, BitVec.toNat_setWidth, hm]

/-! ### RX queue and ReadBytes -/

theorem rxPop_nil {s : State} (h : s.rxq = []) : s.rxPop = none := by simp [State.rxPop, h]

theorem rxPop_cons {s : State} {b : Byte} {l : List Byte} (h : s.rxq = b :: l) :
    s.rxPop = some (b, { s with rxq := l }) := by simp [State.rxPop, h]

theorem readIteration_nil {s : State} (h : s.rxq = []) :
    readIteration s = if expired s.rto s.elapsed then .timedOut s else .waiting s := by
  simp [readIteration, rxPop_nil h]

theorem readIteration_last {s : State} {b : Byte} {l : List Byte} (h : s.rxq = b :: l)
    (hn : s.rdbuf.length + 1 = s.rdn.toNat) :
    readIteration s = .complete (s.rdbuf ++ [b]) { s with rxq := l, rdbuf := s.rdbuf ++ [b] } := by
  simp [readIteration, rxPop_cons h, hn]

theorem readIteration_more {s : State} {b : Byte} {l : List Byte} (h : s.rxq = b :: l)
    (hn : s.rdbuf.length + 1 ≠ s.rdn.toNat) :
    readIteration s = .waiting { s with rxq := l, rdbuf := s.rdbuf ++ [b] } := by
  simp [readIteration, rxPop_cons h, hn]

/-- Everything one iteration of a read can do. -/
theorem readIteration_cases (s : State) :
    (∃ b l, s.rxq = b :: l ∧ s.rdbuf.length + 1 = s.rdn.toNat ∧
      readIteration s = .complete (s.rdbuf ++ [b]) { s with rxq := l, rdbuf := s.rdbuf ++ [b] }) ∨
    (∃ b l, s.rxq = b :: l ∧ s.rdbuf.length + 1 ≠ s.rdn.toNat ∧
      readIteration s = .waiting { s with rxq := l, rdbuf := s.rdbuf ++ [b] }) ∨
    (s.rxq = [] ∧ expired s.rto s.elapsed = true ∧ readIteration s = .timedOut s) ∨
    (s.rxq = [] ∧ expired s.rto s.elapsed = false ∧ readIteration s = .waiting s) := by
  cases hq : s.rxq with
  | nil => cases he : expired s.rto s.elapsed <;> simp [readIteration_nil hq, he]
  | cons b l =>
    by_cases hn : s.rdbuf.length + 1 = s.rdn.toNat
    · exact .inl ⟨b, l, rfl, hn, readIteration_last hq hn⟩
    · exact .inr (.inl ⟨b, l, rfl, hn, readIteration_more hq hn⟩)

/-! ### Errors -/

@[simp] theorem raiseError_eq (st : Status) (s : State) : raiseError st s = respond st 0 0 [] s := rfl

@[simp] theorem failRecv_eq (st : Status) (s : State) : failRecv st s = finishRecv st 0 0 [] s := rfl

theorem takeResponse_some {s : State} {r : Response} (h : s.rsp = some r) :
    takeResponse s = { s with rsp := none, phase := .idle, hostlog := s.hostlog ++ [r] } := by simp [takeResponse, h]

/-! ### What each meaning can answer -/

theorem execSend_next {c : Bool} {cmd : Byte} {p : List Byte} {s t : State} (h : execSend c cmd p s = .next t) :
    (s.phase = .idle ∧ t = sendStart c cmd p s) ∨ (s.phase = .sendWr ∧ t = sendAccepted c cmd p s) := by
  unfold execSend at h
  split at h
  · next hp => cases h; exact .inl ⟨hp, rfl⟩
  · split at h
    · next hp => cases h; exact .inr ⟨hp, rfl⟩
    · cases h

theorem execRawhc_next {cmd : Byte} {s t : State} (h : execRawhc cmd s = .next t) :
    (s.phase = .idle ∧ t = rawhcStart cmd s) ∨ (s.phase = .rawhcWr ∧ t = rawhcAccepted cmd s) := by
  unfold execRawhc at h
  split at h
  · next hp => cases h; exact .inl ⟨hp, rfl⟩
  · split at h
    · next hp => cases h; exact .inr ⟨hp, rfl⟩
    · cases h

theorem execRawdat_next {d : List Byte} {s t : State} (h : execRawdat d s = .next t) :
    (s.phase = .idle ∧ t = rawdatStart d s) ∨ (s.phase = .rawdatWr ∧ t = rawdatAccepted d s) := by
  unfold execRawdat at h
  split at h
  · next hp => cases h; exact .inl ⟨hp, rfl⟩
  · split at h
    · next hp => cases h; exact .inr ⟨hp, rfl⟩
    · cases h

theorem execRawck_next {s t : State} (h : execRawck s = .next t) :
    (s.phase = .idle ∧ t = rawckStart s) ∨ (s.phase = .rawckWr ∧ t = rawckAccepted s) := by
  unfold execRawck at h
  split at h
  · next hp => cases h; exact .inl ⟨hp, rfl⟩
  · split at h
    · next hp => cases h; exact .inr ⟨hp, rfl⟩
    · cases h

theorem execSync_next {timeout : Word} {s t : State} (h : execSync timeout s = .next t) :
    (s.phase = .idle ∧ t = syncStart s) ∨ (s.phase = .syncScan ∧ t = syncIteration timeout s) := by
  unfold execSync at h
  split at h
  · next hp => cases h; exact .inl ⟨hp, rfl⟩
  · split at h
    · next hp => cases h; exact .inr ⟨hp, rfl⟩
    · cases h

theorem execRecv_next {c : Bool} {len : Count} {timeout : Option Word} {s t : State}
    (h : execRecv c len timeout s = .next t) :
    (s.phase = .idle ∧ t = recvStart timeout s) ∨ (s.phase.isRecv = true ∧ t = recvIteration c len s) := by
  unfold execRecv at h
  split at h
  · next hp => cases h; exact .inl ⟨hp, rfl⟩
  · split at h
    · next hp => cases h; exact .inr ⟨hp, rfl⟩
    · cases h

theorem execCksum_next {l : List Byte} {s t : State} (h : execCksum l s = .next t) :
    s.phase = .idle ∧ t = respond .ok (fold l) (lenOf l) [] s := by
  unfold execCksum at h
  split at h
  · next hp => cases h; exact ⟨hp, rfl⟩
  · cases h

/-- What SEND's acceptance can come to (R111 to R113). -/
theorem sendStart_cases (c : Bool) (cmd : Byte) (p : List Byte) (s : State) :
    (s.cfg.lenMode = .negotiated ∧ p.length ≠ (lookupCount s.cfg cmd).toNat ∧
      sendStart c cmd p s = respond .parameterCountMismatch 0 0 [] s) ∨
    (¬ (s.cfg.lenMode = .negotiated ∧ p.length ≠ (lookupCount s.cfg cmd).toNat) ∧
      admissible s.cfg p.length c = false ∧ sendStart c cmd p s = respond .frameTooLarge 0 0 [] s) ∨
    (¬ (s.cfg.lenMode = .negotiated ∧ p.length ≠ (lookupCount s.cfg cmd).toNat) ∧
      admissible s.cfg p.length c = true ∧
      sendStart c cmd p s = offerWrite .sendWr (frameBytes s.cfg c cmd p) s) := by
  by_cases h1 : s.cfg.lenMode = .negotiated ∧ p.length ≠ (lookupCount s.cfg cmd).toNat
  · exact .inl ⟨h1.1, h1.2, by rw [sendStart, if_pos h1]; rfl⟩
  · cases h2 : admissible s.cfg p.length c with
    | false => exact .inr (.inl ⟨h1, rfl, by rw [sendStart, if_neg h1, if_pos h2]; rfl⟩)
    | true => exact .inr (.inr ⟨h1, rfl, by rw [sendStart, if_neg h1, if_neg (by simp [h2])]⟩)

/-- What a scan step can come to (R134). -/
theorem syncIteration_cases (timeout : Word) (s : State) :
    (s.rxq.head? = some s.cfg.hdr ∧ syncIteration timeout s = respond .ok 0 s.disc [] s) ∨
    (s.rxq.head? ≠ some s.cfg.hdr ∧ expired timeout s.elapsed = true ∧
      syncIteration timeout s = respond .noHeaderFound 0 0 [] s) ∨
    (∃ b l, s.rxq = b :: l ∧ b ≠ s.cfg.hdr ∧ expired timeout s.elapsed = false ∧
      syncIteration timeout s = { s with rxq := l, disc := discardCount s.disc }) ∨
    (s.rxq = [] ∧ expired timeout s.elapsed = false ∧ syncIteration timeout s = s) := by
  unfold syncIteration
  by_cases h1 : s.rxPeek = some s.cfg.hdr
  · exact .inl ⟨h1, if_pos h1⟩
  · rw [if_neg h1]
    cases h2 : expired timeout s.elapsed with
    | true => exact .inr (.inl ⟨h1, rfl, rfl⟩)
    | false =>
      cases hq : s.rxq with
      | nil => exact .inr (.inr (.inr ⟨rfl, rfl, by simp [syncDiscard, rxPop_nil hq]⟩))
      | cons b l =>
        refine .inr (.inr (.inl ⟨b, l, rfl, ?_, rfl, by simp [syncDiscard, rxPop_cons hq]⟩))
        intro hb
        exact h1 (by simp [State.rxPeek, hq, hb])

/-! ### What each read of RECV can come to -/

theorem recvByte_cases (next : Byte → State → State) (s : State) :
    (∃ a b l, s.rxq = b :: l ∧ s.rdbuf.length + 1 = s.rdn.toNat ∧ (s.rdbuf ++ [b]).head? = some a ∧
      recvByte next s = next a { s with rxq := l, rdbuf := s.rdbuf ++ [b] }) ∨
    (∃ b l, s.rxq = b :: l ∧ s.rdbuf.length + 1 ≠ s.rdn.toNat ∧
      recvByte next s = { s with rxq := l, rdbuf := s.rdbuf ++ [b] }) ∨
    (s.rxq = [] ∧ expired s.rto s.elapsed = true ∧ recvByte next s = finishRecv .incomplete 0 0 [] s) ∨
    (s.rxq = [] ∧ expired s.rto s.elapsed = false ∧ recvByte next s = s) := by
  rcases readIteration_cases s with ⟨b, l, hq, hn, h⟩ | ⟨b, l, hq, hn, h⟩ | ⟨hq, he, h⟩ | ⟨hq, he, h⟩
  · cases hb : s.rdbuf ++ [b] with
    | nil => simp at hb
    | cons a r => exact .inl ⟨a, b, l, hq, hn, by rw [hb]; rfl, by unfold recvByte; rw [h, hb]⟩
  · exact .inr (.inl ⟨b, l, hq, hn, by unfold recvByte; rw [h]⟩)
  · exact .inr (.inr (.inl ⟨hq, he, by unfold recvByte; rw [h]; rfl⟩))
  · exact .inr (.inr (.inr ⟨hq, he, by unfold recvByte; rw [h]⟩))

theorem recvBlock_cases (c : Bool) (s : State) :
    (∃ b l, s.rxq = b :: l ∧ s.rdbuf.length + 1 = s.rdn.toNat ∧
      recvBlock c s = recvParamsRead c (s.rdbuf ++ [b]) { s with rxq := l, rdbuf := s.rdbuf ++ [b] }) ∨
    (∃ b l, s.rxq = b :: l ∧ s.rdbuf.length + 1 ≠ s.rdn.toNat ∧
      recvBlock c s = { s with rxq := l, rdbuf := s.rdbuf ++ [b] }) ∨
    (s.rxq = [] ∧ expired s.rto s.elapsed = true ∧ recvBlock c s = finishRecv .incomplete 0 0 [] s) ∨
    (s.rxq = [] ∧ expired s.rto s.elapsed = false ∧ recvBlock c s = s) := by
  rcases readIteration_cases s with ⟨b, l, hq, hn, h⟩ | ⟨b, l, hq, hn, h⟩ | ⟨hq, he, h⟩ | ⟨hq, he, h⟩
  · exact .inl ⟨b, l, hq, hn, by unfold recvBlock; rw [h]⟩
  · exact .inr (.inl ⟨b, l, hq, hn, by unfold recvBlock; rw [h]⟩)
  · exact .inr (.inr (.inl ⟨hq, he, by unfold recvBlock; rw [h]; rfl⟩))
  · exact .inr (.inr (.inr ⟨hq, he, by unfold recvBlock; rw [h]⟩))

theorem recvHeaderRead_cases (h : Byte) (s : State) :
    (h ≠ s.cfg.hdr ∧ recvHeaderRead h s = finishRecv .noHeaderFound 0 0 [] s) ∨
    (h = s.cfg.hdr ∧ recvHeaderRead h s = startRead 1 { s with phase := .recvCmd }) := by
  by_cases hh : h = s.cfg.hdr
  · exact .inr ⟨hh, by rw [recvHeaderRead, if_neg (by simp [hh])]⟩
  · exact .inl ⟨hh, by rw [recvHeaderRead, if_pos hh]; rfl⟩

theorem recvCommandRead_cases (c : Bool) (len : Count) (cb : Byte) (s : State) :
    (admissible s.cfg (paramCount s.cfg cb len).toNat c = false ∧
      recvCommandRead c len cb s =
        finishRecv .frameTooLarge 0 0 [] { s with rcmd := cb, pcnt := paramCount s.cfg cb len }) ∨
    (admissible s.cfg (paramCount s.cfg cb len).toNat c = true ∧ paramCount s.cfg cb len ≠ 0 ∧
      recvCommandRead c len cb s =
        startRead (paramCount s.cfg cb len) { s with rcmd := cb, pcnt := paramCount s.cfg cb len, phase := .recvPar }) ∨
    (admissible s.cfg (paramCount s.cfg cb len).toNat c = true ∧ paramCount s.cfg cb len = 0 ∧
      recvCommandRead c len cb s =
        recvParamsRead c [] (startRead 0 { s with rcmd := cb, pcnt := 0, phase := .recvPar })) := by
  cases ha : admissible s.cfg (paramCount s.cfg cb len).toNat c with
  | false => exact .inl ⟨rfl, by unfold recvCommandRead; dsimp only; rw [if_pos ha]; rfl⟩
  | true =>
    by_cases hn : paramCount s.cfg cb len = 0
    · exact .inr (.inr ⟨rfl, hn, by
        unfold recvCommandRead
        dsimp only [startRead]
        rw [if_neg (by simp [ha]), if_pos hn, hn]⟩)
    · exact .inr (.inl ⟨rfl, hn, by
        unfold recvCommandRead
        dsimp only [startRead]
        rw [if_neg (by simp [ha]), if_neg hn]⟩)

theorem recvParamsRead_true (p : List Byte) (s : State) :
    recvParamsRead true p s = startRead 1 { s with pbuf := p, phase := .recvCks } := rfl

theorem recvParamsRead_false (p : List Byte) (s : State) :
    recvParamsRead false p s = finishRecv .ok s.rcmd s.pcnt p { s with pbuf := p } := rfl

theorem recvCompare_cases (k : Byte) (s : State) :
    (k ≠ frameChecksum s.cfg s.rcmd s.pbuf ∧ recvCompare k s = finishRecv .checksumMismatch 0 0 [] s) ∨
    (k = frameChecksum s.cfg s.rcmd s.pbuf ∧ recvCompare k s = finishRecv .ok s.rcmd s.pcnt s.pbuf s) := by
  by_cases hk : k = frameChecksum s.cfg s.rcmd s.pbuf
  · exact .inr ⟨hk, by rw [recvCompare, if_neg (by simp [hk])]⟩
  · exact .inl ⟨hk, by rw [recvCompare, if_pos hk]; rfl⟩

end Sys2Proof.Machine
end

