-- ==== Sys2Proof/Laws/Step.lean ====
section
/-! SUPPORT. One step of the machine by the agent that moves, and several steps over a schedule. -/

namespace Sys2Proof.Machine

@[simp] theorem step_cons (s : State) (e : Event) (es : List Event) :
    step { s with sched := e :: es } = perform e { s with sched := es } := rfl

@[simp] theorem step_scheduled_cons (s : State) (e : Event) (es : List Event) :
    step (s.scheduled (e :: es)) = perform e (s.scheduled es) := rfl

@[simp] theorem step_scheduled_nil (s : State) : step (s.scheduled []) = stepCore (s.scheduled []) := rfl

@[simp] theorem steps_zero (s : State) : steps 0 s = .next s := rfl

theorem steps_succ {n : Nat} {s t : State} (h : step s = .next t) : steps (n + 1) s = steps n t := by simp [steps, h]

/-- A run may be cut in two. -/
theorem steps_add {n m : Nat} {s t : State} (h : steps n s = .next t) : steps (n + m) s = steps m t := by
  induction n generalizing s with
  | zero => cases h; simp
  | succ n ih =>
    rw [Nat.add_right_comm]
    cases hs : step s with
    | next u =>
      rw [steps_succ hs] at h ⊢
      exact ih h
    | fault r => simp [steps, hs] at h
    | refused r => simp [steps, hs] at h

/-- An accepted transaction: latch, decode, then IllegalCommand or the operation (R203). -/
theorem stepOffer_accepted {s : State} {t : Transaction} (hr : s.rst = false) (hp : s.phase = .idle)
    (hw : t.wf = true) : stepOffer t s = acceptCommand t s := by simp [stepOffer, offerEnabled, hr, hp, hw]

theorem acceptCommand_ok {s : State} {t : Transaction} {i : Instr} (h : decode s.cfg.lenMode t = .ok i) :
    acceptCommand t s = exec i (latch t s) := by simp [acceptCommand, h]

theorem acceptCommand_error {s : State} {t : Transaction} {e : DecodeError} (h : decode s.cfg.lenMode t = .error e) :
    acceptCommand t s = .next (respond .illegalCommand 0 0 [] (latch t s)) := by simp [acceptCommand, h]

theorem stepCore_current {s : State} {i : Instr} (hr : s.rst = false) (hp : s.phase.isRxWait = true)
    (hc : s.current = some i) : stepCore s = exec i s := by simp [stepCore, hr, hp, hc]

theorem stepTxAccept_current {s : State} {i : Instr} (hr : s.rst = false) (hp : s.phase.isWrite = true)
    (ht : s.txb ≠ []) (hc : s.current = some i) : stepTxAccept s = exec i s := by
  simp [stepTxAccept, hr, hp, hc, ht]

end Sys2Proof.Machine
end

