-- ==== Sys2Proof/Laws/Exec.lean ====
section
/-! SUPPORT. What every command leaves alone, and what a step can come to, said once for all seven operations. -/

namespace Sys2Proof.Machine

/-- `t` has the configuration, the latch and the environment of `s`, but for rxq and txlog. -/
structure KeepsOuter (s t : State) : Prop where
  cfg : t.cfg = s.cfg
  opl : t.opl = s.opl
  rxcap : t.rxcap = s.rxcap
  rst : t.rst = s.rst
  cfgIn : t.cfgIn = s.cfgIn
  configOut : t.configOut = s.configOut
  hostlog : t.hostlog = s.hostlog
  sched : t.sched = s.sched

theorem KeepsOuter.refl (s : State) : KeepsOuter s s := ⟨rfl, rfl, rfl, rfl, rfl, rfl, rfl, rfl⟩

theorem KeepsOuter.trans {s t u : State} (h : KeepsOuter s t) (h' : KeepsOuter t u) : KeepsOuter s u :=
  ⟨h'.cfg.trans h.cfg, h'.opl.trans h.opl, h'.rxcap.trans h.rxcap, h'.rst.trans h.rst, h'.cfgIn.trans h.cfgIn,
    h'.configOut.trans h.configOut, h'.hostlog.trans h.hostlog, h'.sched.trans h.sched⟩

theorem respond_keeps (st : Status) (r : Byte) (n : Count) (pl : List Byte) (s : State) :
    KeepsOuter s (respond st r n pl s) := ⟨rfl, rfl, rfl, rfl, rfl, rfl, rfl, rfl⟩

theorem finishRecv_keeps (st : Status) (r : Byte) (n : Count) (pl : List Byte) (s : State) :
    KeepsOuter s (finishRecv st r n pl s) := ⟨rfl, rfl, rfl, rfl, rfl, rfl, rfl, rfl⟩

theorem startRead_keeps (n : Count) (s : State) : KeepsOuter s (startRead n s) := ⟨rfl, rfl, rfl, rfl, rfl, rfl, rfl, rfl⟩

theorem sendStart_keeps (c : Bool) (cmd : Byte) (p : List Byte) (s : State) : KeepsOuter s (sendStart c cmd p s) := by
  rcases sendStart_cases c cmd p s with ⟨_, _, h⟩ | ⟨_, _, h⟩ | ⟨_, _, h⟩ <;> rw [h] <;>
    exact ⟨rfl, rfl, rfl, rfl, rfl, rfl, rfl, rfl⟩

theorem syncIteration_keeps (timeout : Word) (s : State) : KeepsOuter s (syncIteration timeout s) := by
  rcases syncIteration_cases timeout s with ⟨_, h⟩ | ⟨_, _, h⟩ | ⟨_, _, _, _, _, h⟩ | ⟨_, _, h⟩ <;> rw [h] <;>
    exact ⟨rfl, rfl, rfl, rfl, rfl, rfl, rfl, rfl⟩

theorem recvCompare_keeps (k : Byte) (s : State) : KeepsOuter s (recvCompare k s) := by
  rcases recvCompare_cases k s with ⟨_, h⟩ | ⟨_, h⟩ <;> rw [h] <;> exact finishRecv_keeps ..

theorem recvParamsRead_keeps (c : Bool) (p : List Byte) (s : State) : KeepsOuter s (recvParamsRead c p s) := by
  cases c <;> exact ⟨rfl, rfl, rfl, rfl, rfl, rfl, rfl, rfl⟩

theorem recvCommandRead_keeps (c : Bool) (len : Count) (cb : Byte) (s : State) :
    KeepsOuter s (recvCommandRead c len cb s) := by
  rcases recvCommandRead_cases c len cb s with ⟨_, h⟩ | ⟨_, _, h⟩ | ⟨_, _, h⟩ <;> rw [h]
  · exact ⟨rfl, rfl, rfl, rfl, rfl, rfl, rfl, rfl⟩
  · exact ⟨rfl, rfl, rfl, rfl, rfl, rfl, rfl, rfl⟩
  · cases c <;> exact ⟨rfl, rfl, rfl, rfl, rfl, rfl, rfl, rfl⟩

theorem recvHeaderRead_keeps (h : Byte) (s : State) : KeepsOuter s (recvHeaderRead h s) := by
  rcases recvHeaderRead_cases h s with ⟨_, h⟩ | ⟨_, h⟩ <;> rw [h] <;> exact ⟨rfl, rfl, rfl, rfl, rfl, rfl, rfl, rfl⟩

theorem recvByte_keeps {next : Byte → State → State} (hn : ∀ b s, KeepsOuter s (next b s)) (s : State) :
    KeepsOuter s (recvByte next s) := by
  rcases recvByte_cases next s with ⟨a, b, l, _, _, _, h⟩ | ⟨b, l, _, _, h⟩ | ⟨_, _, h⟩ | ⟨_, _, h⟩ <;> rw [h]
  · refine KeepsOuter.trans ?_ (hn ..)
    exact ⟨rfl, rfl, rfl, rfl, rfl, rfl, rfl, rfl⟩
  · exact ⟨rfl, rfl, rfl, rfl, rfl, rfl, rfl, rfl⟩
  · exact finishRecv_keeps ..
  · exact KeepsOuter.refl s

theorem recvBlock_keeps (c : Bool) (s : State) : KeepsOuter s (recvBlock c s) := by
  rcases recvBlock_cases c s with ⟨b, l, _, _, h⟩ | ⟨b, l, _, _, h⟩ | ⟨_, _, h⟩ | ⟨_, _, h⟩ <;> rw [h]
  · cases c <;> exact ⟨rfl, rfl, rfl, rfl, rfl, rfl, rfl, rfl⟩
  · exact ⟨rfl, rfl, rfl, rfl, rfl, rfl, rfl, rfl⟩
  · exact finishRecv_keeps ..
  · exact KeepsOuter.refl s

theorem recvIteration_keeps (c : Bool) (len : Count) (s : State) : KeepsOuter s (recvIteration c len s) := by
  unfold recvIteration
  split
  · exact recvByte_keeps recvHeaderRead_keeps s
  · exact recvByte_keeps (recvCommandRead_keeps c len) s
  · exact recvBlock_keeps c s
  · exact recvByte_keeps recvCompare_keeps s
  all_goals exact KeepsOuter.refl s

/-- No command writes CFG, OPL or the environment, but for rxq and txlog. -/
theorem exec_keeps {i : Instr} {s t : State} (h : exec i s = .next t) : KeepsOuter s t := by
  cases i with
  | send c cmd p =>
    rcases execSend_next h with ⟨_, rfl⟩ | ⟨_, rfl⟩
    · exact sendStart_keeps c cmd p s
    · exact ⟨rfl, rfl, rfl, rfl, rfl, rfl, rfl, rfl⟩
  | rawhc cmd => rcases execRawhc_next h with ⟨_, rfl⟩ | ⟨_, rfl⟩ <;> exact ⟨rfl, rfl, rfl, rfl, rfl, rfl, rfl, rfl⟩
  | rawdat d =>
    rcases execRawdat_next h with ⟨_, rfl⟩ | ⟨_, rfl⟩
    · unfold rawdatStart
      split <;> exact ⟨rfl, rfl, rfl, rfl, rfl, rfl, rfl, rfl⟩
    · exact ⟨rfl, rfl, rfl, rfl, rfl, rfl, rfl, rfl⟩
  | rawck => rcases execRawck_next h with ⟨_, rfl⟩ | ⟨_, rfl⟩ <;> exact ⟨rfl, rfl, rfl, rfl, rfl, rfl, rfl, rfl⟩
  | sync timeout =>
    rcases execSync_next h with ⟨_, rfl⟩ | ⟨_, rfl⟩
    · unfold syncStart
      split <;> exact ⟨rfl, rfl, rfl, rfl, rfl, rfl, rfl, rfl⟩
    · exact syncIteration_keeps timeout s
  | recv c len timeout =>
    rcases execRecv_next h with ⟨_, rfl⟩ | ⟨_, rfl⟩
    · cases timeout <;> exact ⟨rfl, rfl, rfl, rfl, rfl, rfl, rfl, rfl⟩
    · exact recvIteration_keeps c len s
  | cksum l =>
    obtain ⟨_, rfl⟩ := execCksum_next h
    exact respond_keeps ..

/-- What a step can come to: nothing but the schedule moves, a command runs, or one agent of the environment acts. -/
theorem step_next {s t : State} (h : step s = .next t) :
    ∃ e es, nextEvent s = (e, es) ∧ perform e (s.scheduled es) = .next t := ⟨_, _, rfl, h⟩

/-- What the core's own step can come to. -/
theorem stepCore_next {s t : State} (h : stepCore s = .next t) :
    (t = s ∧ (s.rst = true ∨ s.phase.isRxWait = false ∨ s.current = none)) ∨
    ∃ i, s.rst = false ∧ s.phase.isRxWait = true ∧ s.current = some i ∧ exec i s = .next t := by
  unfold stepCore at h
  split at h
  · next hg =>
    cases hc : s.current with
    | none => rw [hc] at h; cases h; exact .inl ⟨rfl, .inr (.inr rfl)⟩
    | some i => rw [hc] at h; exact .inr ⟨i, hg.1, hg.2, rfl, h⟩
  · next hg =>
    cases h
    refine .inl ⟨rfl, ?_⟩
    cases hr : s.rst <;> cases hp : s.phase.isRxWait <;> simp_all

/-- What a TX accept can come to. -/
theorem stepTxAccept_next {s t : State} (h : stepTxAccept s = .next t) :
    (t = s ∧ (s.rst = true ∨ s.phase.isWrite = false ∨ s.txb = [] ∨ s.current = none)) ∨
    ∃ i, s.rst = false ∧ s.phase.isWrite = true ∧ s.txb ≠ [] ∧ s.current = some i ∧ exec i s = .next t := by
  unfold stepTxAccept at h
  split at h
  · next hg =>
    cases hc : s.current with
    | none => rw [hc] at h; cases h; exact .inl ⟨rfl, .inr (.inr (.inr rfl))⟩
    | some i => rw [hc] at h; exact .inr ⟨i, hg.1, hg.2.1, hg.2.2, rfl, h⟩
  · next hg =>
    cases h
    refine .inl ⟨rfl, ?_⟩
    cases hr : s.rst <;> cases hp : s.phase.isWrite <;> simp_all

/-- What an offer can come to: it is not taken, it is illegal, or the command runs. -/
theorem stepOffer_next {x : Transaction} {s t : State} (h : stepOffer x s = .next t) :
    (t = s ∧ offerEnabled x s = false) ∨
    (s.rst = false ∧ s.phase = .idle ∧ x.wf = true ∧
      ((∃ e, decode s.cfg.lenMode x = .error e ∧ t = respond .illegalCommand 0 0 [] (latch x s)) ∨
        ∃ i, decode s.cfg.lenMode x = .ok i ∧ exec i (latch x s) = .next t)) := by
  unfold stepOffer at h
  split at h
  · next hg =>
    simp only [offerEnabled, Bool.and_eq_true, beq_iff_eq] at hg
    refine .inr ⟨hg.1.1, hg.1.2, hg.2, ?_⟩
    unfold acceptCommand at h
    split at h
    · next e he => cases h; exact .inl ⟨e, he, rfl⟩
    · next i hi => exact .inr ⟨i, hi, h⟩
  · next hg => cases h; exact .inl ⟨rfl, by simpa using hg⟩

theorem offerEnabled_iff (x : Transaction) (s : State) :
    offerEnabled x s = true ↔ s.rst = false ∧ s.phase = .idle ∧ x.wf = true := by
  simp [offerEnabled, and_assoc]

end Sys2Proof.Machine
end

