-- ==== Sys2Proof/Laws/PerInstr.lean ====
section
/-! SUPPORT. The family EncodeFields: the descriptor of a command's spelling has its opcode in bits 31:28, zero in the
reserved bits, and T exactly when there is a timeout word (spec/30_encoding.md rules R86, R89, R90, R93). -/

namespace Sys2Proof.Laws.EncodeFields

open Sys2Proof

/-- The opcode of a command (R93). -/
def opOf : Instr → BitVec 4
  | .send _ _ _ => 1
  | .rawhc _ => 2
  | .rawdat _ => 3
  | .rawck => 4
  | .sync _ => 5
  | .recv _ _ _ => 6
  | .cksum _ => 7

def Statement (i : Instr) : Prop :=
  descOp (encode i).desc = opOf i ∧ descRes (encode i).desc = 0 ∧ descT (encode i).desc = (encode i).tmo.isSome

theorem send (c : Bool) (cmd : Byte) (params : List Byte) : Statement (.send c cmd params) :=
  ⟨descOp_mkDesc .., descRes_mkDesc .., descT_mkDesc ..⟩

theorem rawhc (cmd : Byte) : Statement (.rawhc cmd) := ⟨descOp_mkDesc .., descRes_mkDesc .., descT_mkDesc ..⟩

theorem rawdat (data : List Byte) : Statement (.rawdat data) := ⟨descOp_mkDesc .., descRes_mkDesc .., descT_mkDesc ..⟩

theorem rawck : Statement .rawck := ⟨descOp_mkDesc .., descRes_mkDesc .., descT_mkDesc ..⟩

theorem sync (timeout : Word) : Statement (.sync timeout) := ⟨descOp_mkDesc .., descRes_mkDesc .., descT_mkDesc ..⟩

theorem recv (c : Bool) (len : Count) (timeout : Option Word) : Statement (.recv c len timeout) :=
  ⟨descOp_mkDesc .., descRes_mkDesc .., descT_mkDesc ..⟩

theorem cksum (bytes : List Byte) : Statement (.cksum bytes) := ⟨descOp_mkDesc .., descRes_mkDesc .., descT_mkDesc ..⟩

end Sys2Proof.Laws.EncodeFields
end

