-- ==== Sys2Proof/Tests/Slice0.lean ====
section
/-! SUPPORT. Small tests of the model and a witness for the hypotheses of every statement. Expected values are the spec's:
the vectors of spec/95_test_vectors.md, named in each comment, and words written from spec/30_encoding.md. -/

namespace Sys2Proof.Tests

open Sys2Proof Sys2Proof.Machine

/-! ### Helpers -/

/-- CFG_EX of spec/95_test_vectors.md. -/
def cfgEx : Cfg := { Config.atReset with lenMode := .negotiated }

/-- The state after a reset that latched CFG_EX. -/
def ex : State := State.resetWith cfgEx

/-- The same under CFG_EX_D. -/
def exD : State := State.resetWith Config.atReset

/-- The same under CFG_EX_S. -/
def exS : State := State.resetWith { cfgEx with syncStrict := true }

/-- The state with the command latched. -/
def lat (i : Instr) (s : State) : State := latch (encode i) s

/-- The state with the given RX queue. -/
def rx (l : List Byte) (s : State) : State := { s with rxq := l }

/-- The state in a phase of a command, with the command latched. -/
def inPhase (p : Phase) (i : Instr) (s : State) : State := { lat i s with phase := p }

/-- The state in a read of `n` bytes. -/
def reading (p : Phase) (i : Instr) (n : Count) (taken l : List Byte) (s : State) : State :=
  { inPhase p i s with rdn := n, rdbuf := taken, rxq := l }

/-- The next state of a result, or the reset state where there is none. -/
def got : Result → State
  | .next s => s
  | .fault _ => State.reset
  | .refused _ => State.reset

/-- The decoder's reason for refusing a transaction. -/
def verdict (mode : LenMode) (t : Transaction) : Option DecodeError :=
  match decode mode t with
  | .error e => some e
  | .ok _ => none

/-- The descriptor of R86 from its fields as numbers, bit by bit place values. -/
def word (op c t res cmd len : Nat) : Word :=
  BitVec.ofNat 32 (op * 2 ^ 28 + c * 2 ^ 27 + t * 2 ^ 26 + res * 2 ^ 24 + cmd * 2 ^ 16 + len)

/-! ### WellFormed refuses ill-formed terms -/

theorem payloadFits_replicate (n : Nat) (b : Byte) : payloadFits (List.replicate n b) = decide (n ≤ 65535) := by
  rw [payloadFits, List.length_replicate]

theorem test_wf_refuses_long_transaction :
    Transaction.wf ⟨0x30000000, none, List.replicate 65536 0⟩ = false :=
  (payloadFits_replicate 65536 0).trans (by decide)

theorem test_wf_refuses_long_send : Instr.wf .declared (.send true 1 (List.replicate 65536 0)) = false :=
  (payloadFits_replicate 65536 0).trans (by decide)

theorem test_wf_refuses_long_rawdat : Instr.wf .declared (.rawdat (List.replicate 65536 0)) = false :=
  (payloadFits_replicate 65536 0).trans (by decide)

theorem test_wf_refuses_long_cksum : Instr.wf .declared (.cksum (List.replicate 65536 0)) = false :=
  (payloadFits_replicate 65536 0).trans (by decide)

theorem test_wf_refuses_recv_length_negotiated : Instr.wf .negotiated (.recv true 3 none) = false := by decide

theorem test_wf_accepts_longest_payload : Instr.wf .declared (.send true 1 (List.replicate 65535 0)) = true :=
  (payloadFits_replicate 65535 0).trans (by decide)

/-! ### Decoding words written from R86 and R94 -/

-- SEND.C: OP 0001, C 1, T 0, RES 00, CMD 00000001, LEN 2 (V-SEND-1).
theorem test_decode_send :
    (decode .negotiated ⟨0b0001_1_0_00_00000001_0000000000000010, none, [0x10, 0x20]⟩).toOption =
      some (.send true 0x01 [0x10, 0x20]) := by decide

-- SEND: C 0, CMD 10000000, LEN 1: the high bit of CMD stays in CMD.
theorem test_decode_send_plain :
    (decode .declared ⟨0b0001_0_0_00_10000000_0000000000000001, none, [0xFE]⟩).toOption =
      some (.send false 0x80 [0xFE]) := by decide

-- RAWHC: OP 0010, CMD 11111111.
theorem test_decode_rawhc :
    (decode .negotiated ⟨0b0010_0_0_00_11111111_0000000000000000, none, []⟩).toOption = some (.rawhc 0xFF) := by decide

-- RAWDAT: OP 0011, LEN 2 (V-RAW-3).
theorem test_decode_rawdat :
    (decode .negotiated ⟨0b0011_0_0_00_00000000_0000000000000010, none, [0x10, 0x20]⟩).toOption =
      some (.rawdat [0x10, 0x20]) := by decide

-- RAWCK: OP 0100, all else 0.
theorem test_decode_rawck :
    (decode .negotiated ⟨0b0100_0_0_00_00000000_0000000000000000, none, []⟩).toOption = some .rawck := by decide

-- SYNC: OP 0101, T 1.
theorem test_decode_sync :
    (decode .negotiated ⟨0b0101_0_1_00_00000000_0000000000000000, some 0xFFFFFFFF, []⟩).toOption =
      some (.sync 0xFFFFFFFF) := by decide

-- RECV.C with a count, DECLARED: OP 0110, C 1, LEN 8000 hex (V-ILL-18's form, its top bit).
theorem test_decode_recv_declared :
    (decode .declared ⟨0b0110_1_0_00_00000000_1000000000000000, none, []⟩).toOption =
      some (.recv true 0x8000 none) := by decide

-- RECV to=5: OP 0110, C 0, T 1.
theorem test_decode_recv_timeout :
    (decode .negotiated ⟨0b0110_0_1_00_00000000_0000000000000000, some 5, []⟩).toOption =
      some (.recv false 0 (some 5)) := by decide

-- CKSUM: OP 0111, LEN 1 (V-CK-3).
theorem test_decode_cksum :
    (decode .negotiated ⟨0b0111_0_0_00_00000000_0000000000000001, none, [0x5A]⟩).toOption =
      some (.cksum [0x5A]) := by decide

-- V-ILL-1 to V-ILL-17, each with the reason the vector gives.
theorem test_illegal_vectors :
    [ ((⟨0x00000000, none, []⟩ : Transaction), DecodeError.unassignedOp),
      (⟨0x90000000, none, []⟩, .unassignedOp), (⟨0xF0000000, none, []⟩, .unassignedOp),
      (⟨0x50000000, none, []⟩, .fixedField), (⟨0x5C000000, some 5, []⟩, .fixedField),
      (⟨0x11010002, none, [0x10, 0x20]⟩, .reservedBits), (⟨0x14010002, some 5, [0x10, 0x20]⟩, .fixedField),
      (⟨0x18010002, none, [0x10]⟩, .payloadLength), (⟨0x68000003, none, []⟩, .recvLenNegotiated),
      (⟨0x68050000, none, []⟩, .fixedField), (⟨0x6C000000, none, []⟩, .timeoutPresence),
      (⟨0x68000000, some 5, []⟩, .timeoutPresence), (⟨0x40000001, none, []⟩, .fixedField),
      (⟨0x20010001, none, []⟩, .fixedField), (⟨0x38000002, none, [0x10, 0x20]⟩, .fixedField),
      (⟨0x70010001, none, [0x5A]⟩, .fixedField), (⟨0x60000000, none, [0x01]⟩, .payloadLength) ].all
      (fun p => decide (verdict .negotiated p.1 = some p.2)) = true := by decide

-- V-ILL-18: not illegal under DECLARED.
theorem test_declared_length_is_legal : verdict .declared ⟨0x68000003, none, []⟩ = none := by decide

-- V-ILL-2's response: the unassigned opcode is echoed.
theorem test_illegal_response :
    (got (step (ex.scheduled [.offer ⟨0x90000000, none, []⟩]))).rsp = some ⟨0x79000000, []⟩ := by decide

-- No descriptor selects two rows of R94: the OP nibbles differ.
theorem test_rows_are_disjoint : (opTable.map (fun r => descOp r.pattern)).Nodup := by decide

/-! ### One step of each instruction -/

-- V-SEND-1.
theorem test_send_offers_the_frame :
    (got (step (ex.scheduled [.offer ⟨0x18010002, none, [0x10, 0x20]⟩]))).txb = [0xAA, 0x01, 0x10, 0x20, 0x9B] := by
  decide

-- V-SEND-7: both checks fail, the count check wins.
theorem test_send_count_check_first :
    (got (step (ex.scheduled [.offer ⟨0x18010008, none, [1, 2, 3, 4, 5, 6, 7, 8]⟩]))).rsp = some ⟨0x31000000, []⟩ := by
  decide

-- V-RAW-2, its TX accept.
theorem test_rawhc_sets_the_accumulator :
    let u := got (exec (.rawhc 0x01) { inPhase .rawhcWr (.rawhc 0x01) ex with txb := [0xAA, 0x01] })
    u.txacc = 0xAB ∧ u.txlog = [[0xAA, 0x01]] ∧ u.rsp = some ⟨0x02000002, []⟩ := by decide

-- V-RAW-3, its TX accept.
theorem test_rawdat_folds_the_data :
    let u := got (exec (.rawdat [0x10, 0x20])
      { inPhase .rawdatWr (.rawdat [0x10, 0x20]) ex with txb := [0x10, 0x20], txacc := 0xAB })
    u.txacc = 0x9B ∧ u.rsp = some ⟨0x03000002, []⟩ := by decide

-- V-RAW-4, its TX accept.
theorem test_rawck_emits_the_accumulator :
    let u := got (exec .rawck { inPhase .rawckWr .rawck ex with txb := [0x9B], txacc := 0x9B })
    u.txlog = [[0x9B]] ∧ u.txacc = 0x9B ∧ u.rsp = some ⟨0x049B0001, []⟩ := by decide

-- V-SYNC-4: expiry comes before the discard.
theorem test_sync_expiry_before_discard :
    let u := got (exec (.sync 0) { rx [0x11, 0xAA] (inPhase .syncScan (.sync 0) ex) with elapsed := 1 })
    u.rsp = some ⟨0x15000000, []⟩ ∧ u.rxq = [0x11, 0xAA] := by decide

-- V-SYNC-11's last discard: DISC saturates.
theorem test_sync_discard_saturates :
    (got (exec (.sync 9) { rx [0x55, 0xAA] (inPhase .syncScan (.sync 9) ex) with disc := 0xFFFF })).disc = 0xFFFF := by
  decide

-- V-RECV-7: the size check leaves the body queued.
theorem test_recv_frame_too_large :
    let u := got (exec (.recv true 8 none) (reading .recvCmd (.recv true 8 none) 1 [] [0x05, 1, 2] exD))
    u.rsp = some ⟨0x46000000, []⟩ ∧ u.rxq = [1, 2] := by decide

-- V-RECV-15's last step: the response, and RTO restored.
theorem test_recv_checksum_step :
    let u := got (exec (.recv true 0 (some 5))
      { reading .recvCks (.recv true 0 (some 5)) 1 [] [0x9B] ex with
        rcmd := 0x01, pcnt := 2, pbuf := [0x10, 0x20], rto := 5 })
    u.rsp = some ⟨0x06010002, [0x10, 0x20]⟩ ∧ u.rto = 1000 := by decide

-- V-CK-1.
theorem test_cksum :
    (got (step (ex.scheduled [.offer ⟨0x70000004, none, [0xAA, 0x01, 0x10, 0x20]⟩]))).rsp = some ⟨0x079B0004, []⟩ := by
  decide

/-! ### Reset, schedule and the host's entry points -/

-- R45 and V-RST-5: the values of the configuration inputs are taken at the release.
theorem test_release_latches_the_inputs :
    let u := got (step ({ ex with rst := true, cfgIn := { cfgEx with defaultRto := 7 } }.scheduled [.releaseReset]))
    u.rto = 7 ∧ u.cfg.defaultRto = 7 ∧ u.rst = false := by decide

-- V-RST-2: a write not accepted is dropped.
theorem test_reset_drops_the_write :
    let u := got (step ({ inPhase .sendWr (.send true 1 [0x10, 0x20]) ex with txb := [0xAA] }.scheduled [.assertReset]))
    u.txb = [] ∧ u.txlog = [] ∧ u.rsp = none := by decide

-- ELAPSED saturates at 2^33 - 1 (R29).
theorem test_tick_saturates :
    (got (step ({ ex with elapsed := 0x1FFFFFFFF }.scheduled [.tick]))).elapsed = 0x1FFFFFFFF := by decide

-- T = 0xFFFFFFFF has not expired at 2^32 - 1 Ticks and has at 2^32 (V-SYNC-9).
theorem test_expiry_at_the_largest_limit :
    expired 0xFFFFFFFF 0xFFFFFFFF = false ∧ expired 0xFFFFFFFF 0x100000000 = true := by decide

-- A table word: the SYNC row's word, its timeout in bits 63..32 (log entry 12).
theorem test_decode_table_word : decodeTableWord 64 0x000003E854000000 = some (.sync 1000) := by decide

-- withFetchWord runs exactly that instruction as the next step.
theorem test_fetched_word_runs :
    (got (step (State.reset.withFetchWord 32 0x20010000))).txb = [0xAA, 0x01] := by decide

/-! ### Spelling (R102 to R105) -/

theorem test_send_text : instrText (.send true 0x01 [0x10, 0x20]) = "SEND.C 0x01, [0x10, 0x20]" := by decide

theorem test_recv_text : instrText (.recv true 0 (some 5)) = "RECV.C to=5" := by decide

-- V-L1-2's response.
theorem test_response_text :
    responseText ⟨0x06010002, [0x10, 0x20]⟩ = some "→ OK 0x06010002 [10 20]" := by decide

-- R100: a reserved status has no meaning.
theorem test_reserved_status_has_no_text : responseText ⟨0x80000000, []⟩ = none := by decide

-- R105: no RAWDAT for an empty list, no RAWCK without .C.
theorem test_send_raw_sequence :
    sendRawSequence false 1 [] = [.rawhc 1] ∧
    sendRawSequence true 1 [2] = [.rawhc 1, .rawdat [2], .rawck] := by decide

-- R104: RECV follows only an OK.
theorem test_sync_recv_sequence :
    syncRecvSecond ⟨0x05000002, []⟩ true 0 none = some (.recv true 0 none) ∧
    syncRecvSecond ⟨0x15000000, []⟩ true 0 none = none := by decide

/-! ### Witnesses: concrete states and operands that meet the hypotheses of each statement

Each has the name of its statement. Where a statement has several clauses, the witness has one part for each, in the
clauses' order, at a boundary of its range. -/

theorem witness_DecodeOfEncodeIsTheCommand :
    Instr.wf .declared (.send true 0xFF (List.replicate 65535 0)) = true ∧
    Instr.wf .negotiated (.recv true 0 (some 0xFFFFFFFF)) = true ∧
    Instr.wf .declared (.recv false 0xFFFF none) = true :=
  ⟨(payloadFits_replicate 65535 0).trans (by decide), by decide, by decide⟩

theorem witness_LegalTransactionIsTheSpellingOfItsCommand :
    decode .negotiated ⟨0x6C000000, some 5, []⟩ = .ok (.recv true 0 (some 5)) := rfl

-- First part: a transaction for each case of the list, in order (OP 0 and OP 8, RES, C, T set, T clear, CMD, LEN, tmo
-- presence, payload of LEN bytes, empty payload, RECV's LEN); a legal one; then the premises of the second part.
theorem witness_IllegalExactlyInTheListedCases :
    [ (⟨word 0 0 0 0 0 0, none, []⟩ : Transaction), ⟨word 8 0 0 0 0 0, none, []⟩, ⟨word 4 0 0 3 0 0, none, []⟩,
      ⟨word 4 1 0 0 0 0, none, []⟩, ⟨word 4 0 1 0 0 0, some 0, []⟩, ⟨word 5 0 0 0 0 0, none, []⟩,
      ⟨word 4 0 0 0 1 0, none, []⟩, ⟨word 4 0 0 0 0 1, none, []⟩, ⟨word 6 0 1 0 0 0, none, []⟩,
      ⟨word 7 0 0 0 0 1, none, []⟩, ⟨word 6 0 0 0 0 0, none, [0]⟩, ⟨word 6 0 0 0 0 1, none, []⟩ ].all
      (fun t => (verdict .negotiated t).isSome) = true ∧
    verdict .declared ⟨word 6 0 0 0 0 1, none, []⟩ = none ∧
    (ex.rst = false ∧ ex.phase = .idle ∧ Transaction.wf ⟨0xF0000000, none, []⟩ = true ∧
      decode ex.cfg.lenMode ⟨0xF0000000, none, []⟩ = .error .unassignedOp) :=
  ⟨by decide, by decide, by decide, by decide, by decide, rfl⟩

theorem witness_AcceptanceLatchesTheDescriptorFields :
    (ex.rst = false ∧ ex.phase = .idle ∧ Transaction.wf ⟨0xFCFFFFFF, some 1, [2]⟩ = true) ∧
    (0x41000000 : Word).extractLsb' 24 2 ≠ 0 ∧ (0x43000000 : Word) &&& 0xFCFFFFFF = 0x40000000 &&& 0xFCFFFFFF := by decide

theorem witness_FoldIsOrderIndependent :
    List.Perm [(0xAA : Byte), 0x01, 0x10, 0x20] [0x20, 0x10, 0x01, 0xAA] := by decide

theorem witness_FoldLaws :
    (0x10 : Byte) ≠ 0x11 ∧ cfgEx.ckWin = .hdrIncluded ∧ { cfgEx with ckWin := .hdrExcluded }.ckWin = .hdrExcluded := by
  decide

theorem witness_CksumAnswersTheFoldInOneStep :
    let s := lat (.cksum []) ex
    s.phase = .idle ∧ Latched (.cksum []) s ∧ s.txb = [] := by decide

-- Second clause: CFG_EX_D with a frame of 11 bytes, and CFG_EX with MAXF = 1 and the looked-up count.
theorem witness_SendChecksTheNegotiatedCount :
    (let s := lat (.send true 1 [0x10]) ex
     s.phase = .idle ∧ Latched (.send true 1 [0x10]) s ∧ s.cfg.lenMode = .negotiated ∧
       [(0x10 : Byte)].length ≠ (lookupCount s.cfg 1).toNat) ∧
    (let i := Instr.send true 5 [1, 2, 3, 4, 5, 6, 7, 8]
     exD.phase = .idle ∧ exD.cfg.lenMode = .declared ∧ exD.rsp = none ∧
       ∃ t r, exec i exD = .next t ∧ t.rsp = some r) ∧
    (let s := State.resetWith { cfgEx with maxf := 1 }
     s.phase = .idle ∧ ([] : List Byte).length = (lookupCount s.cfg 3).toNat ∧ s.rsp = none ∧
       ∃ t r, exec (.send false 3 []) s = .next t ∧ t.rsp = some r) :=
  ⟨by decide, ⟨by decide, by decide, by decide, _, _, rfl, rfl⟩, ⟨by decide, by decide, by decide, _, _, rfl, rfl⟩⟩

theorem witness_SendChecksTheFrameSize :
    (let s := lat (.send true 5 [1, 2, 3, 4, 5, 6, 7, 8]) exD
     s.phase = .idle ∧ Latched (.send true 5 [1, 2, 3, 4, 5, 6, 7, 8]) s ∧ s.cfg.lenMode = .declared ∧
       s.cfg.maxf.toNat < 2 + 8 + true.toNat) ∧
    (let s := lat (.send false 5 [1, 2, 3, 4, 5, 6, 7, 8]) exD
     s.phase = .idle ∧ Latched (.send false 5 [1, 2, 3, 4, 5, 6, 7, 8]) s ∧ s.cfg.lenMode = .declared ∧
       2 + 8 + false.toNat ≤ s.cfg.maxf.toNat) ∧
    (let s := lat (.send true 1 [0x10, 0x20]) ex
     s.phase = .idle ∧ Latched (.send true 1 [0x10, 0x20]) s ∧ 2 = (lookupCount s.cfg 1).toNat ∧
       2 + 2 + true.toNat ≤ s.cfg.maxf.toNat) := by decide

theorem witness_SendCompletesOnTxAccept :
    let s := { inPhase .sendWr (.send true 1 [0x10, 0x20]) ex with txb := [0xAA, 0x01, 0x10, 0x20, 0x9B] }
    s.phase = .sendWr ∧ Latched (.send true 1 [0x10, 0x20]) s := by decide

theorem witness_SendWritesTheWholeFrameAtOnce :
    ex.rst = false ∧ ex.phase = .idle ∧ 3 = (lookupCount ex.cfg 2).toNat ∧ 2 + 3 + true.toNat ≤ ex.cfg.maxf.toNat ∧
    exD.cfg.lenMode = .declared ∧ 2 + 8 + false.toNat ≤ exD.cfg.maxf.toNat := by decide

theorem witness_FailedSendOnlyAnswers :
    ex.phase = .idle ∧ ex.txb = [] ∧ ∃ t, exec (.send true 1 [0x10]) ex = .next t ∧ t.phase ≠ .sendWr :=
  ⟨by decide, by decide, _, rfl, by decide⟩

theorem witness_RawhcCompletesOnTxAccept :
    let s := { inPhase .rawhcWr (.rawhc 0xAA) ex with txb := [0xAA, 0xAA] }
    s.phase = .rawhcWr ∧ Latched (.rawhc 0xAA) s := by decide

theorem witness_RawhcWritesHeaderAndCommand : ex.rst = false ∧ ex.phase = .idle := by decide

theorem witness_EmptyRawdatAnswersAtOnce : ex.rst = false ∧ ex.phase = .idle ∧ ex.txb = [] := by decide

theorem witness_RawdatCompletesOnTxAccept :
    let s := { inPhase .rawdatWr (.rawdat [7]) ex with txb := [7] }
    s.phase = .rawdatWr ∧ Latched (.rawdat [7]) s := by decide

theorem witness_RawdatFoldsAccumulate :
    ex.rst = false ∧ ex.phase = .idle ∧ [(0x10 : Byte)] ≠ [] ∧ [(0x10 : Byte)].length ≤ 65535 ∧
    List.replicate 65535 (0x20 : Byte) ≠ [] ∧ (List.replicate 65535 (0x20 : Byte)).length ≤ 65535 :=
  ⟨by decide, by decide, by decide, by decide, List.cons_ne_nil _ _, Nat.le_of_eq (List.length_replicate ..)⟩

theorem witness_RawckCompletesOnTxAccept :
    let s := { inPhase .rawckWr .rawck ex with txb := [0] }
    s.phase = .rawckWr ∧ Latched .rawck s := by decide

theorem witness_RawckWritesTheAccumulator : ex.rst = false ∧ ex.phase = .idle := by decide

theorem witness_RawSequenceWritesTheChecksummedFrame :
    ex.rst = false ∧ ex.phase = .idle ∧ [(0x10 : Byte)].length ≤ 65535 ∧ [(0x10 : Byte)] ≠ [] ∧
    ([] : List Byte).length ≤ 65535 := by decide

theorem witness_RawOperationsMakeNoChecks :
    isRaw (.rawhc 1) = true ∧ isRaw (.rawdat []) = true ∧ isRaw .rawck = true ∧
    ∃ t r, exec (.rawdat []) ex = .next t ∧ t.rsp = some r ∧ ex.rsp = none :=
  ⟨by decide, by decide, by decide, _, _, rfl, rfl, by decide⟩

theorem witness_FramerOperationsFrame :
    isFramer (.send true 1 [0x10, 0x20]) = true ∧ (∃ t, exec (.send true 1 [0x10, 0x20]) ex = .next t) ∧
    (∃ t, exec .rawck { inPhase .rawckWr .rawck ex with txb := [0] } = .next t) ∧ ex.phase = .idle :=
  ⟨by decide, ⟨_, rfl⟩, ⟨_, rfl⟩, by decide⟩

theorem witness_SyncStartsTheScan :
    (ex.phase = .idle ∧ ex.cfg.syncStrict = false) ∧
    (exS.phase = .idle ∧ 3 ≤ (rx [0xAA, 0x01, 0x10] exS).rxq.length) := by decide

theorem witness_StrictSyncNeedsThreeBytes :
    (let s := rx [0xAA, 0x01] (lat (.sync 1000) exS)
     s.phase = .idle ∧ Latched (.sync 1000) s ∧ s.cfg.syncStrict = true ∧ s.rxq.length < 3) ∧
    (let s := rx [0xAA] (inPhase .syncScan (.sync 1000) exS)
     s.rsp = none ∧ s.phase = .syncScan ∧ ∃ t r, exec (.sync 1000) s = .next t ∧ t.rsp = some r) :=
  ⟨by decide, by decide, by decide, _, _, rfl, rfl⟩

theorem witness_ScanStepTestsInOrder :
    (let s := { rx [0xAA] (inPhase .syncScan (.sync 2) ex) with elapsed := 3 }
     s.phase = .syncScan ∧ Latched (.sync 2) s ∧ s.rxq.head? = some s.cfg.hdr) ∧
    (let s := { rx [0x33] (inPhase .syncScan (.sync 2) ex) with elapsed := 3 }
     s.phase = .syncScan ∧ Latched (.sync 2) s ∧ s.rxq.head? ≠ some s.cfg.hdr ∧ (2 : Word).toNat < s.elapsed.toNat) ∧
    (let s := { rx [0x33] (inPhase .syncScan (.sync 2) ex) with elapsed := 2 }
     s.phase = .syncScan ∧ Latched (.sync 2) s ∧ s.rxq = [0x33] ∧ (0x33 : Byte) ≠ s.cfg.hdr ∧
       s.elapsed.toNat ≤ (2 : Word).toNat) ∧
    (let s := { inPhase .syncScan (.sync 0xFFFFFFFF) ex with elapsed := 0xFFFFFFFF }
     s.phase = .syncScan ∧ Latched (.sync 0xFFFFFFFF) s ∧ s.rxq = [] ∧
       s.elapsed.toNat ≤ (0xFFFFFFFF : Word).toNat) := by decide

theorem witness_SyncNeverConsumesAHeader :
    let s := rx [0xAA] (inPhase .syncScan (.sync 0) ex)
    ∃ t r, exec (.sync 0) s = .next t ∧ t.rsp = some r ∧ s.rsp = none ∧ Status.ofCode r.statusField = some .ok :=
  ⟨_, _, rfl, rfl, by decide, by decide⟩

theorem witness_SyncExpiresAfterExactlyMoreThanTTicks :
    ex.rst = false ∧ ex.phase = .idle ∧ ex.cfg.syncStrict = false ∧ ex.rxq = [] ∧ 5 ≤ (5 : Word).toNat := by decide

theorem witness_SyncDiscardsExactlyThePrefix :
    let s := rx [0xFF, 0xFF, 0xAA, 0x02] ex
    s.rst = false ∧ s.phase = .idle ∧ s.cfg.syncStrict = false ∧ s.rxq = [0xFF, 0xFF] ++ s.cfg.hdr :: [0x02] ∧
      s.cfg.hdr ∉ [0xFF, 0xFF] := by decide

theorem witness_RecvStartsTheHeaderRead : ex.phase = .idle := by decide

theorem witness_RecvHeaderStep :
    let i := Instr.recv true 0 none
    (let s := reading .recvHdr i 1 [] [0xAA, 0x01] ex
     s.phase = .recvHdr ∧ Latched i s ∧ s.rdn = 1 ∧ s.rdbuf = [] ∧ s.rxq = s.cfg.hdr :: [0x01]) ∧
    (let s := reading .recvHdr i 1 [] [0xAB] ex
     s.phase = .recvHdr ∧ Latched i s ∧ s.rdn = 1 ∧ s.rdbuf = [] ∧ s.rxq = [0xAB] ∧ 0xAB ≠ s.cfg.hdr) ∧
    (let s := { reading .recvHdr i 1 [] [] ex with elapsed := 1001 }
     s.phase = .recvHdr ∧ Latched i s ∧ s.rdn = 1 ∧ s.rdbuf = [] ∧ s.rxq = [] ∧ s.rto.toNat < s.elapsed.toNat) ∧
    (let s := { reading .recvHdr i 1 [] [] ex with elapsed := 1000 }
     s.phase = .recvHdr ∧ Latched i s ∧ s.rdn = 1 ∧ s.rdbuf = [] ∧ s.rxq = [] ∧ s.elapsed.toNat ≤ s.rto.toNat) := by
  decide

-- The first clause's four parts: 11 bytes, 10 bytes (both CFG_EX_D), and no parameters with and without a checksum.
theorem witness_RecvCommandStep :
    (let s := reading .recvCmd (.recv true 8 none) 1 [] [0x05] exD
     s.phase = .recvCmd ∧ Latched (.recv true 8 none) s ∧ s.rdn = 1 ∧ s.rdbuf = [] ∧ s.rxq = [0x05] ∧
       s.cfg.lenMode = .declared ∧ s.cfg.maxf.toNat < 2 + (8 : Count).toNat + true.toNat) ∧
    (let s := reading .recvCmd (.recv false 8 none) 1 [] [0x05] exD
     s.phase = .recvCmd ∧ Latched (.recv false 8 none) s ∧ s.rdn = 1 ∧ s.rdbuf = [] ∧ s.rxq = [0x05] ∧
       s.cfg.lenMode = .declared ∧ 2 + (8 : Count).toNat + false.toNat ≤ s.cfg.maxf.toNat ∧ (8 : Count) ≠ 0) ∧
    (let s := reading .recvCmd (.recv true 0 none) 1 [] [0x03] ex
     s.phase = .recvCmd ∧ Latched (.recv true 0 none) s ∧ s.rdn = 1 ∧ s.rdbuf = [] ∧ s.rxq = [0x03] ∧
       s.cfg.lenMode = .negotiated ∧ lookupCount s.cfg 0x03 = 0 ∧
       2 + (0 : Count).toNat + true.toNat ≤ s.cfg.maxf.toNat) ∧
    (let s := reading .recvCmd (.recv false 0 none) 1 [] [0x03] ex
     s.phase = .recvCmd ∧ Latched (.recv false 0 none) s ∧ s.rdn = 1 ∧ s.rdbuf = [] ∧ s.rxq = [0x03] ∧
       s.cfg.lenMode = .negotiated ∧ lookupCount s.cfg 0x03 = 0 ∧
       2 + (0 : Count).toNat + false.toNat ≤ s.cfg.maxf.toNat) ∧
    (let s := { reading .recvCmd (.recv true 0 none) 1 [] [] ex with elapsed := 1001 }
     s.phase = .recvCmd ∧ Latched (.recv true 0 none) s ∧ s.rdn = 1 ∧ s.rdbuf = [] ∧ s.rxq = [] ∧
       s.rto.toNat < s.elapsed.toNat) ∧
    (let s := { reading .recvCmd (.recv true 0 none) 1 [] [] ex with elapsed := 1000 }
     s.phase = .recvCmd ∧ Latched (.recv true 0 none) s ∧ s.rdn = 1 ∧ s.rdbuf = [] ∧ s.rxq = [] ∧
       s.elapsed.toNat ≤ s.rto.toNat) := by decide

theorem witness_RecvParameterStep :
    let i := Instr.recv true 0 none
    let j := Instr.recv false 0 none
    (let s := reading .recvPar i 3 [1] [2] ex
     s.phase = .recvPar ∧ Latched i s ∧ s.rdbuf.length < s.rdn.toNat ∧ s.rxq = [2] ∧
       s.rdbuf.length + 1 < s.rdn.toNat) ∧
    (let s := reading .recvPar i 2 [1] [2] ex
     s.phase = .recvPar ∧ Latched i s ∧ s.rdbuf.length < s.rdn.toNat ∧ s.rxq = [2] ∧
       s.rdbuf.length + 1 = s.rdn.toNat) ∧
    (let s := reading .recvPar j 1 [] [2] ex
     s.phase = .recvPar ∧ Latched j s ∧ s.rdbuf.length < s.rdn.toNat ∧ s.rxq = [2] ∧
       s.rdbuf.length + 1 = s.rdn.toNat) ∧
    (let s := { reading .recvPar i 3 [1] [] ex with elapsed := 1001 }
     s.phase = .recvPar ∧ Latched i s ∧ s.rdbuf.length < s.rdn.toNat ∧ s.rxq = [] ∧
       s.rto.toNat < s.elapsed.toNat) ∧
    (let s := { reading .recvPar i 3 [1] [] ex with elapsed := 1000 }
     s.phase = .recvPar ∧ Latched i s ∧ s.rdbuf.length < s.rdn.toNat ∧ s.rxq = [] ∧
       s.elapsed.toNat ≤ s.rto.toNat) := by decide

theorem witness_RecvCompletesAtTheChecksum :
    let i := Instr.recv true 0 none
    let b : State := { ex with rcmd := 0x01, pcnt := 2, pbuf := [0x10, 0x20] }
    (let s := reading .recvCks i 1 [] [0x9B, 7] b
     s.phase = .recvCks ∧ Latched i s ∧ s.rdn = 1 ∧ s.rdbuf = [] ∧
       s.rxq = fold (window s.cfg s.rcmd s.pbuf) :: [7]) ∧
    (let s := reading .recvCks i 1 [] [0x9A] b
     s.phase = .recvCks ∧ Latched i s ∧ s.rdn = 1 ∧ s.rdbuf = [] ∧ s.rxq = [0x9A] ∧
       0x9A ≠ fold (window s.cfg s.rcmd s.pbuf)) ∧
    (let s := { reading .recvCks i 1 [] [] b with elapsed := 1001 }
     s.phase = .recvCks ∧ Latched i s ∧ s.rdn = 1 ∧ s.rdbuf = [] ∧ s.rxq = [] ∧ s.rto.toNat < s.elapsed.toNat) ∧
    (let s := { reading .recvCks i 1 [] [] b with elapsed := 1000 }
     s.phase = .recvCks ∧ Latched i s ∧ s.rdn = 1 ∧ s.rdbuf = [] ∧ s.rxq = [] ∧ s.elapsed.toNat ≤ s.rto.toNat) := by
  decide

theorem witness_EveryEndOfRecvRestoresTheTimeout :
    let s := { reading .recvHdr (.recv true 0 (some 5)) 1 [] [] ex with rto := 5, elapsed := 6 }
    s.phase.isRecv = true ∧ ∃ t, exec (.recv true 0 (some 5)) s = .next t ∧ t.phase = .resp :=
  ⟨by decide, _, rfl, by decide⟩

theorem witness_RecvFrame : ∃ t, exec (.recv true 0 none) (reading .recvHdr (.recv true 0 none) 1 [] [0xAA] ex) = .next t :=
  ⟨_, rfl⟩

-- V-RECV-2 and V-RECV-8: both length modes, with and without a checksum, 10 bytes at MAXF = 10.
theorem witness_ReceiveOfASentFrameReturnsIt :
    (let s := rx [0xAA, 0x01, 0x10, 0x20] ex
     s.rst = false ∧ s.phase = .idle ∧ s.rxq = frameBytes s.cfg false 0x01 [0x10, 0x20] ++ [] ∧
       s.cfg.lenMode = .negotiated ∧ (lookupCount s.cfg 0x01).toNat = 2 ∧
       2 + 2 + false.toNat ≤ s.cfg.maxf.toNat) ∧
    (let s := rx [0xAA, 0x05, 1, 2, 3, 4, 5, 6, 7, 0xAF, 9] exD
     s.rst = false ∧ s.phase = .idle ∧ s.rxq = frameBytes s.cfg true 0x05 [1, 2, 3, 4, 5, 6, 7] ++ [9] ∧
       s.cfg.lenMode = .declared ∧ (7 : Count).toNat = 7 ∧ 2 + 7 + true.toNat ≤ s.cfg.maxf.toNat) := by decide

-- V-RECV-11 and V-RECV-8; the two premises of the second part; then one changed byte: the command 0x05 read as 0x06 (the first
-- place after the header, both counts 0), and the checksum byte, V-RECV-8's 0xAF read as 0xA7 (the last place).
theorem witness_ReceiveVerdictIsTheChecksumComparison :
    (let s := rx [0xAA, 0x01, 0x10, 0x20, 0x9A] ex
     s.rst = false ∧ s.phase = .idle ∧ s.rxq = [s.cfg.hdr, 0x01] ++ [0x10, 0x20] ++ 0x9A :: [] ∧
       s.cfg.lenMode = .negotiated ∧ (lookupCount s.cfg 0x01).toNat = 2 ∧ 3 + 2 ≤ s.cfg.maxf.toNat ∧
       0x9A ≠ fold (window s.cfg 0x01 [0x10, 0x20])) ∧
    (let s := rx [0xAA, 0x05, 1, 2, 3, 4, 5, 6, 7, 0xAF] exD
     s.rst = false ∧ s.phase = .idle ∧ s.rxq = [s.cfg.hdr, 0x05] ++ [1, 2, 3, 4, 5, 6, 7] ++ 0xAF :: [] ∧
       s.cfg.lenMode = .declared ∧ (7 : Count).toNat = 7 ∧ 3 + 7 ≤ s.cfg.maxf.toNat ∧
       0xAF = fold (window s.cfg 0x05 [1, 2, 3, 4, 5, 6, 7])) ∧
    (0x20 : Byte) ≠ 0x21 ∧
    (let s := rx ([0xAA] ++ 0x06 :: [0xAF] ++ []) ex
     s.rst = false ∧ s.phase = .idle ∧ frameBytes s.cfg true 0x05 [] = [0xAA] ++ 0x05 :: [0xAF] ∧ [(0xAA : Byte)] ≠ [] ∧
       (0x05 : Byte) ≠ 0x06 ∧ s.rxq = ([0xAA] ++ 0x06 :: [0xAF]) ++ [] ∧ s.cfg.lenMode = .negotiated ∧
       ([(0xAA : Byte)] ++ 0x06 :: [0xAF])[1]? = some 0x06 ∧ (lookupCount s.cfg 0x06).toNat = 0 ∧
       3 + 0 ≤ s.cfg.maxf.toNat) ∧
    (let pre := [0xAA, 0x05, 1, 2, 3, 4, 5, 6, 7]
     let s := rx (pre ++ [0xA7, 9]) exD
     s.rst = false ∧ s.phase = .idle ∧ frameBytes s.cfg true 0x05 [1, 2, 3, 4, 5, 6, 7] = pre ++ 0xAF :: [] ∧ pre ≠ [] ∧
       (0xAF : Byte) ≠ 0xA7 ∧ s.rxq = (pre ++ 0xA7 :: []) ++ [9] ∧ s.cfg.lenMode = .declared ∧ (7 : Count).toNat = 7 ∧
       3 + 7 ≤ s.cfg.maxf.toNat) := by decide

-- V-L1-5.
theorem witness_TruncatedFrameIsIncomplete :
    let s := rx [0xAA, 0x01, 0x10, 0x20] ex
    s.rst = false ∧ s.phase = .idle ∧ s.rxq = [s.cfg.hdr, 0x01] ++ [0x10, 0x20] ∧ s.cfg.lenMode = .negotiated ∧
      (lookupCount s.cfg 0x01).toNat = 2 ∧ 3 + 2 ≤ s.cfg.maxf.toNat := by decide

theorem witness_StepRunsTheOfferedCommand :
    (ex.rst = false ∧ ex.phase = .idle ∧ Transaction.wf ⟨0x40000000, none, []⟩ = true ∧
      decode ex.cfg.lenMode ⟨0x40000000, none, []⟩ = .ok .rawck) ∧
    (Transaction.wf ⟨0x40000001, none, []⟩ = true ∧
      decode ex.cfg.lenMode ⟨0x40000001, none, []⟩ = .error .fixedField) ∧
    (inPhase .syncScan (.sync 1) ex).phase ≠ .idle :=
  ⟨⟨by decide, by decide, by decide, rfl⟩, ⟨by decide, rfl⟩, by decide⟩

theorem witness_StepContinuesTheLatchedCommand :
    (let s := inPhase .syncScan (.sync 1) ex
     s.rst = false ∧ s.current = some (.sync 1) ∧ s.phase.isRxWait = true) ∧
    (let s := { inPhase .rawckWr .rawck ex with txb := [0] }
     s.rst = false ∧ s.current = some .rawck ∧ s.phase.isWrite = true ∧ s.txb ≠ []) ∧
    ex.phase.isRxWait = false ∧
    (let i := Instr.recv true 3 (some 5)
     let s := inPhase .recvCks i exD
     i.wf .declared = true ∧ Latched i s ∧ s.phase ≠ .idle ∧ s.phase ≠ .resp ∧ ownPhase i s.phase = true) := by decide

theorem witness_MeaningsStopOnlyOutsideTheirPhases :
    ownPhase (.recv true 0 none) .recvCks = true ∧ ownPhase (.cksum []) .resp = false := by decide

-- A SEND waiting for its TX accept meets the invariant, and its accept is a step.
theorem witness_EveryStepKeepsTheInvariant :
    let s := { inPhase .sendWr (.send true 1 [0x10, 0x20]) ex with
      txb := [0xAA, 0x01, 0x10, 0x20, 0x9B], sched := [.txAccept] }
    Inv s ∧ ∃ t, step s = .next t := by
  refine ⟨?_, _, rfl⟩
  constructor
  case op_phase => exact fun op h => Option.some.inj h
  case rsp_word => exact fun r h => nomatch h
  case txlog_sizes => exact fun w h => nomatch h
  all_goals decide

theorem witness_AssertedResetAbortsAndHoldsTheCore :
    let s : State := { ex with rst := true, sched := [.tick] }
    s.rst = true ∧ (nextEvent s).1 ≠ .assertReset ∧ (nextEvent s).1 ≠ .releaseReset ∧ ∃ t, step s = .next t :=
  ⟨by decide, by decide, by decide, _, rfl⟩

theorem witness_OnlyTheReleaseOfResetWritesTheConfiguration :
    { ex with rst := true }.rst = true ∧
    (∃ t, step (ex.scheduled [.tick]) = .next t ∧ (nextEvent (ex.scheduled [.tick])).1 ≠ .releaseReset) ∧
    (∃ t, step (ex.scheduled [.releaseReset]) = .next t ∧ ex.rst = false) :=
  ⟨by decide, ⟨_, rfl, by decide⟩, _, rfl, by decide⟩

theorem witness_RateIsPresentedOnceAtTheRelease :
    { ex with rst := true }.rst = true ∧
    (∃ t, step (ex.scheduled [.tick]) = .next t ∧ (nextEvent (ex.scheduled [.tick])).1 ≠ .releaseReset) ∧
    (∃ t, step (ex.scheduled [.releaseReset]) = .next t ∧ ex.rst = false) :=
  ⟨by decide, ⟨_, rfl, by decide⟩, _, rfl, by decide⟩

theorem witness_TicksCountAndWaitsStartAtZero :
    { ex with elapsed := 0x1FFFFFFFF }.rst = false ∧
    ∃ t, exec (.sync 5) ex = .next t ∧ t.phase ≠ ex.phase ∧ t.phase.isRxWait = true :=
  ⟨by decide, _, rfl, by decide, by decide⟩

theorem witness_OnlyRawWritesAndResetChangeTheAccumulator :
    let s := { inPhase .rawhcWr (.rawhc 1) ex with txb := [0xAA, 1] }.scheduled [.txAccept]
    ∃ t, step s = .next t ∧ t.txacc ≠ s.txacc := ⟨_, rfl, by decide⟩

theorem witness_OnlyRecvAndResetChangeTheTimeout :
    let s := ex.scheduled [.offer (encode (.recv true 0 (some 5)))]
    ∃ t, step s = .next t ∧ t.rto ≠ s.rto := ⟨_, rfl, by decide⟩

theorem witness_RxQueueIsFirstInFirstOut : ∃ t, step (ex.scheduled [.rxArrive 0x55 false]) = .next t := ⟨_, rfl⟩

theorem witness_ArrivalAppendsOrAFullQueueDrops :
    ex.rxcap ≠ some ex.rxq.length ∧ { rx [1] ex with rxcap := some 1 }.rxcap = some (rx [1] ex).rxq.length := by decide

theorem witness_TxLogGrowsByWholeWrites :
    ∃ t, step ({ inPhase .rawckWr .rawck ex with txb := [0] }.scheduled [.txAccept]) = .next t := ⟨_, rfl⟩

theorem witness_ResponseIsHeldUntilTaken :
    let s : State := { ex with phase := .resp, rsp := some ⟨0x04000001, []⟩ }
    (s.rst = false ∧ s.phase = .resp ∧ s.rsp = some ⟨0x04000001, []⟩) ∧
    ∃ t, step (s.scheduled [.tick]) = .next t ∧ (nextEvent (s.scheduled [.tick])).1 ≠ .hostTake ∧
      (nextEvent (s.scheduled [.tick])).1 ≠ .assertReset :=
  ⟨by decide, _, rfl, by decide, by decide⟩

theorem witness_UnacceptedWriteWaitsForEver :
    let s := { inPhase .rawckWr .rawck ex with txb := [0] }
    s.rst = false ∧ s.phase.isWrite = true ∧
      ∀ e ∈ [Event.core, .tick, .rxArrive 1 false, .hostTake], e ≠ .txAccept ∧ e ≠ .assertReset := by decide

theorem witness_ErrorResponsesWriteNothing :
    let s := ex.scheduled [.offer (encode (.send true 1 [0x10]))]
    ∃ t r, step s = .next t ∧ s.rsp = none ∧ t.rsp = some r ∧ Status.ofCode r.statusField ≠ some .ok :=
  ⟨_, _, rfl, by decide, rfl, by decide⟩

-- Second part: the step that reads the last parameter, which writes PBUF, and one that ends RECV with PBUF as it was.
theorem witness_OplAndPbufAreNotReadInIdle :
    (ex.phase = .idle ∧ ∃ t, step (ex.scheduled [.offer (encode .rawck)]) = .next t) ∧
    (let s := reading .recvPar (.recv true 0 none) 1 [] [2] ex
     s.phase ≠ .recvCks ∧ ∃ t, step s = .next t) ∧
    (let s := reading .recvHdr (.recv true 0 none) 1 [] [2] ex
     s.phase ≠ .recvCks ∧ ∃ t, step s = .next t) :=
  ⟨⟨by decide, _, rfl⟩, ⟨by decide, _, rfl⟩, by decide, _, rfl⟩

end Sys2Proof.Tests
end

/-! PROOFS. The family 10_state.md: what reset leaves (R45), and the Tick counter and where each wait starts (R29). -/

namespace Sys2Proof.Machine

/-! ### The steps of the Tick and of reset -/

theorem step_tick {s : State} (hr : s.rst = false) (es : List Event) :
    step (s.scheduled (.tick :: es)) = .next { s with elapsed := tickCount s.elapsed, sched := es } := by
  rw [step_scheduled_cons, perform, stepTick, if_neg (by simp [hr])]
  rfl

theorem step_assertReset (s : State) (es : List Event) :
    step (s.scheduled (.assertReset :: es)) = .next ((assertReset s).scheduled es) := rfl

theorem step_releaseReset {s : State} (hr : s.rst = true) (es : List Event) :
    step (s.scheduled (.releaseReset :: es)) = .next ((releaseReset s).scheduled es) := by
  rw [step_scheduled_cons, perform, if_pos (by simp [hr])]
  rfl

/-- Settles O47: the release steps from the state the assertion left, and overwrites what depends on the configuration. -/
theorem resetValues : Obligations.ResetValues := by
  intro s es
  have hassert := step_assertReset s (.releaseReset :: es)
  have hrelease := step_releaseReset (assertReset_rst s) es
  refine ⟨_, _, hassert, hrelease, ?_⟩
  simp

/-! ### Where a wait starts

Every operation's acceptance and every continuation after a completed read ends outside the RX waits or starts a wait of
its own; every other iteration of a wait loop stays in its phase. -/

/-- If the core waits on the RX queue, no Tick has been counted in that wait yet (R29). -/
structure WaitIsFresh (s : State) : Prop where
  elapsed_eq : s.phase.isRxWait = true → s.elapsed = 0

theorem waitIsFresh_of_phase {s : State} (h : s.phase.isRxWait = false) : WaitIsFresh s := ⟨by simp [h]⟩

theorem waitIsFresh_of_elapsed {s : State} (h : s.elapsed = 0) : WaitIsFresh s := ⟨fun _ => h⟩

@[simp] theorem respond_waitIsFresh (st : Status) (r : Byte) (n : Count) (pl : List Byte) (s : State) :
    WaitIsFresh (respond st r n pl s) := waitIsFresh_of_phase rfl

@[simp] theorem finishRecv_waitIsFresh (st : Status) (r : Byte) (n : Count) (pl : List Byte) (s : State) :
    WaitIsFresh (finishRecv st r n pl s) := waitIsFresh_of_phase rfl

@[simp] theorem startRead_waitIsFresh (n : Count) (s : State) : WaitIsFresh (startRead n s) := waitIsFresh_of_elapsed rfl

theorem sendStart_waitIsFresh (c : Bool) (cmd : Byte) (p : List Byte) (s : State) :
    WaitIsFresh (sendStart c cmd p s) := by
  rcases sendStart_cases c cmd p s with ⟨_, _, h⟩ | ⟨_, _, h⟩ | ⟨_, _, h⟩ <;> rw [h] <;> exact waitIsFresh_of_phase rfl

theorem rawdatStart_waitIsFresh (d : List Byte) (s : State) : WaitIsFresh (rawdatStart d s) := by
  unfold rawdatStart
  split <;> exact waitIsFresh_of_phase rfl

theorem syncStart_waitIsFresh (s : State) : WaitIsFresh (syncStart s) := by
  unfold syncStart
  split
  · exact respond_waitIsFresh ..
  · exact waitIsFresh_of_elapsed rfl

theorem recvHeaderRead_waitIsFresh (h : Byte) (s : State) : WaitIsFresh (recvHeaderRead h s) := by
  rcases recvHeaderRead_cases h s with ⟨_, h⟩ | ⟨_, h⟩ <;> simp [h]

theorem recvParamsRead_waitIsFresh (c : Bool) (p : List Byte) (s : State) : WaitIsFresh (recvParamsRead c p s) := by
  cases c
  · simp [recvParamsRead_false]
  · simp [recvParamsRead_true]

theorem recvCommandRead_waitIsFresh (c : Bool) (len : Count) (cb : Byte) (s : State) :
    WaitIsFresh (recvCommandRead c len cb s) := by
  rcases recvCommandRead_cases c len cb s with ⟨_, h⟩ | ⟨_, _, h⟩ | ⟨_, _, h⟩ <;> rw [h]
  · exact finishRecv_waitIsFresh ..
  · exact startRead_waitIsFresh ..
  · exact recvParamsRead_waitIsFresh ..

theorem recvCompare_waitIsFresh (k : Byte) (s : State) : WaitIsFresh (recvCompare k s) := by
  rcases recvCompare_cases k s with ⟨_, h⟩ | ⟨_, h⟩ <;> simp [h]

theorem recvByte_samePhase_or_waitIsFresh {next : Byte → State → State} (hn : ∀ b s, WaitIsFresh (next b s))
    (s : State) : (recvByte next s).phase = s.phase ∨ WaitIsFresh (recvByte next s) := by
  rcases recvByte_cases next s with ⟨a, b, l, _, _, _, h⟩ | ⟨b, l, _, _, h⟩ | ⟨_, _, h⟩ | ⟨_, _, h⟩ <;> rw [h]
  · exact .inr (hn ..)
  · exact .inl rfl
  · exact .inr (finishRecv_waitIsFresh ..)
  · exact .inl rfl

theorem recvBlock_samePhase_or_waitIsFresh (c : Bool) (s : State) :
    (recvBlock c s).phase = s.phase ∨ WaitIsFresh (recvBlock c s) := by
  rcases recvBlock_cases c s with ⟨b, l, _, _, h⟩ | ⟨b, l, _, _, h⟩ | ⟨_, _, h⟩ | ⟨_, _, h⟩ <;> rw [h]
  · exact .inr (recvParamsRead_waitIsFresh ..)
  · exact .inl rfl
  · exact .inr (finishRecv_waitIsFresh ..)
  · exact .inl rfl

theorem recvIteration_samePhase_or_waitIsFresh (c : Bool) (len : Count) (s : State) :
    (recvIteration c len s).phase = s.phase ∨ WaitIsFresh (recvIteration c len s) := by
  unfold recvIteration
  split
  · exact recvByte_samePhase_or_waitIsFresh recvHeaderRead_waitIsFresh s
  · exact recvByte_samePhase_or_waitIsFresh (recvCommandRead_waitIsFresh c len) s
  · exact recvBlock_samePhase_or_waitIsFresh c s
  · exact recvByte_samePhase_or_waitIsFresh recvCompare_waitIsFresh s
  all_goals exact .inl rfl

theorem syncIteration_samePhase_or_waitIsFresh (timeout : Word) (s : State) :
    (syncIteration timeout s).phase = s.phase ∨ WaitIsFresh (syncIteration timeout s) := by
  rcases syncIteration_cases timeout s with ⟨_, h⟩ | ⟨_, _, h⟩ | ⟨_, _, _, _, _, h⟩ | ⟨_, _, h⟩ <;> rw [h]
  · exact .inr (respond_waitIsFresh ..)
  · exact .inr (respond_waitIsFresh ..)
  · exact .inl rfl
  · exact .inl rfl

theorem exec_samePhase_or_waitIsFresh {i : Instr} {s t : State} (h : exec i s = .next t) :
    t.phase = s.phase ∨ WaitIsFresh t := by
  cases i with
  | send c cmd p =>
    rcases execSend_next h with ⟨_, rfl⟩ | ⟨_, rfl⟩
    · exact .inr (sendStart_waitIsFresh ..)
    · exact .inr (respond_waitIsFresh ..)
  | rawhc cmd => rcases execRawhc_next h with ⟨_, rfl⟩ | ⟨_, rfl⟩ <;> exact .inr (waitIsFresh_of_phase rfl)
  | rawdat d =>
    rcases execRawdat_next h with ⟨_, rfl⟩ | ⟨_, rfl⟩
    · exact .inr (rawdatStart_waitIsFresh ..)
    · exact .inr (respond_waitIsFresh ..)
  | rawck => rcases execRawck_next h with ⟨_, rfl⟩ | ⟨_, rfl⟩ <;> exact .inr (waitIsFresh_of_phase rfl)
  | sync timeout =>
    rcases execSync_next h with ⟨_, rfl⟩ | ⟨_, rfl⟩
    · exact .inr (syncStart_waitIsFresh s)
    · exact syncIteration_samePhase_or_waitIsFresh timeout s
  | recv c len timeout =>
    rcases execRecv_next h with ⟨_, rfl⟩ | ⟨_, rfl⟩
    · exact .inr (startRead_waitIsFresh ..)
    · exact recvIteration_samePhase_or_waitIsFresh c len s
  | cksum l =>
    obtain ⟨_, rfl⟩ := execCksum_next h
    exact .inr (respond_waitIsFresh ..)

/-- Settles O51: a step of a command that changes the phase leaves no wait that has counted a Tick. -/
theorem ticksCountAndWaitsStartAtZero : Obligations.TicksCountAndWaitsStartAtZero := by
  refine ⟨?tick, ?start, ?expiry, ?reset⟩
  case tick => exact fun s es hr => ⟨_, tickCount_toNat s.elapsed, step_tick hr es⟩
  case start =>
    intro i s t h hne hwait
    have hfresh := (exec_samePhase_or_waitIsFresh h).resolve_left hne
    exact hfresh.elapsed_eq hwait
  case expiry => exact fun limit e => by rw [expired_eq_decide, decide_eq_true_iff]
  case reset => exact fun s es => ⟨_, step_assertReset s es, by simp⟩

end Sys2Proof.Machine

/-! PROOFS. The family 20_memory.md: the RX queue is a FIFO whose one consumer is the core (R51), and what an arrival
does (R55). -/

namespace Sys2Proof.Machine

/-! ### The RX arrival -/

theorem stepRxArrive_appends {s : State} {b : Byte} {lose : Bool} (h : ¬(lose = true ∧ s.rxcap = some s.rxq.length)) :
    stepRxArrive b lose s = { s with rxq := s.rxq ++ [b] } := if_neg h

theorem stepRxArrive_drops {s : State} {b : Byte} {lose : Bool} (h : lose = true ∧ s.rxcap = some s.rxq.length) :
    stepRxArrive b lose s = s := if_pos h

theorem step_rxArrive (s : State) (b : Byte) (lose : Bool) (es : List Event) :
    step (s.scheduled (.rxArrive b lose :: es)) = .next (stepRxArrive b lose (s.scheduled es)) := rfl

/-- Settles O55: an arrival drops its byte exactly when the environment chooses so at a full queue. -/
theorem arrivalAppendsOrAFullQueueDrops : Obligations.ArrivalAppendsOrAFullQueueDrops := by
  intro s b lose es
  refine ⟨fun hkeep => ?appends, fun hlose hfull => ?drops⟩
  case appends =>
    have hnot : ¬(lose = true ∧ s.rxcap = some s.rxq.length) := not_and_or.mpr (hkeep.imp_left Bool.eq_false_iff.mp)
    rw [step_rxArrive, stepRxArrive_appends (s := s.scheduled es) hnot]
    rfl
  case drops =>
    rw [step_rxArrive, stepRxArrive_drops (s := s.scheduled es) ⟨hlose, hfull⟩]
    rfl

/-! ### Which parts of an operation leave the RX queue alone

Every acceptance, and everything that follows a completed read. -/

@[simp] theorem sendStart_rxq (c : Bool) (cmd : Byte) (p : List Byte) (s : State) :
    (sendStart c cmd p s).rxq = s.rxq := by
  rcases sendStart_cases c cmd p s with ⟨_, _, h⟩ | ⟨_, _, h⟩ | ⟨_, _, h⟩ <;> simp [h]

@[simp] theorem rawdatStart_rxq (d : List Byte) (s : State) : (rawdatStart d s).rxq = s.rxq := by
  unfold rawdatStart
  split <;> rfl

@[simp] theorem syncStart_rxq (s : State) : (syncStart s).rxq = s.rxq := by
  unfold syncStart
  split <;> rfl

@[simp] theorem recvStart_rxq (timeout : Option Word) (s : State) : (recvStart timeout s).rxq = s.rxq := by
  cases timeout <;> rfl

@[simp] theorem recvHeaderRead_rxq (h : Byte) (s : State) : (recvHeaderRead h s).rxq = s.rxq := by
  rcases recvHeaderRead_cases h s with ⟨_, h⟩ | ⟨_, h⟩ <;> simp [h]

@[simp] theorem recvParamsRead_rxq (c : Bool) (p : List Byte) (s : State) : (recvParamsRead c p s).rxq = s.rxq := by
  cases c <;> rfl

@[simp] theorem recvCommandRead_rxq (c : Bool) (len : Count) (cb : Byte) (s : State) :
    (recvCommandRead c len cb s).rxq = s.rxq := by
  rcases recvCommandRead_cases c len cb s with ⟨_, h⟩ | ⟨_, _, h⟩ | ⟨_, _, h⟩ <;> simp [h]

@[simp] theorem recvCompare_rxq (k : Byte) (s : State) : (recvCompare k s).rxq = s.rxq := by
  rcases recvCompare_cases k s with ⟨_, h⟩ | ⟨_, h⟩ <;> simp [h]

@[simp] theorem takeResponse_rxq (s : State) : (takeResponse s).rxq = s.rxq := by
  unfold takeResponse
  split <;> rfl

@[simp] theorem stepHostTake_rxq (s : State) : (stepHostTake s).rxq = s.rxq := by
  unfold stepHostTake
  split
  · exact takeResponse_rxq s
  · rfl

@[simp] theorem stepTick_rxq (s : State) : (stepTick s).rxq = s.rxq := by
  unfold stepTick
  split <;> rfl

/-! ### The consumer of the RX queue

Only an iteration of a wait loop takes a byte, and it takes the front one. -/

/-- `t` has the RX queue of `s`, or that queue without its front byte. -/
def TakesAtMostFront (s t : State) : Prop := t.rxq = s.rxq ∨ ∃ b, s.rxq = b :: t.rxq

theorem recvByte_takesAtMostFront {next : Byte → State → State} (hn : ∀ b s, (next b s).rxq = s.rxq) (s : State) :
    TakesAtMostFront s (recvByte next s) := by
  rcases recvByte_cases next s with ⟨_, b, l, hq, _, _, h⟩ | ⟨b, l, hq, _, h⟩ | ⟨_, _, h⟩ | ⟨_, _, h⟩ <;> rw [h]
  · exact .inr ⟨b, by rw [hn, hq]⟩
  · exact .inr ⟨b, hq⟩
  · exact .inl rfl
  · exact .inl rfl

theorem recvBlock_takesAtMostFront (c : Bool) (s : State) : TakesAtMostFront s (recvBlock c s) := by
  rcases recvBlock_cases c s with ⟨b, l, hq, _, h⟩ | ⟨b, l, hq, _, h⟩ | ⟨_, _, h⟩ | ⟨_, _, h⟩ <;> rw [h]
  · exact .inr ⟨b, by rw [recvParamsRead_rxq, hq]⟩
  · exact .inr ⟨b, hq⟩
  · exact .inl rfl
  · exact .inl rfl

theorem recvIteration_takesAtMostFront (c : Bool) (len : Count) (s : State) :
    TakesAtMostFront s (recvIteration c len s) := by
  unfold recvIteration
  split
  · exact recvByte_takesAtMostFront recvHeaderRead_rxq s
  · exact recvByte_takesAtMostFront (recvCommandRead_rxq c len) s
  · exact recvBlock_takesAtMostFront c s
  · exact recvByte_takesAtMostFront recvCompare_rxq s
  all_goals exact .inl rfl

theorem syncIteration_takesAtMostFront (timeout : Word) (s : State) :
    TakesAtMostFront s (syncIteration timeout s) := by
  rcases syncIteration_cases timeout s with ⟨_, h⟩ | ⟨_, _, h⟩ | ⟨b, l, hq, _, _, h⟩ | ⟨_, _, h⟩ <;> rw [h]
  · exact .inl rfl
  · exact .inl rfl
  · exact .inr ⟨b, hq⟩
  · exact .inl rfl

theorem isRxWait_of_isRecv {p : Phase} (h : p.isRecv = true) : p.isRxWait = true := by
  revert h
  cases p <;> decide

/-- A command leaves the RX queue alone, or runs one iteration of a wait loop. -/
theorem exec_rxq_eq_or_takesAtMostFront {i : Instr} {s t : State} (h : exec i s = .next t) :
    t.rxq = s.rxq ∨ (s.phase.isRxWait = true ∧ TakesAtMostFront s t) := by
  cases i with
  | send c cmd p => rcases execSend_next h with ⟨_, rfl⟩ | ⟨_, rfl⟩ <;> exact .inl (by simp [sendAccepted])
  | rawhc cmd => rcases execRawhc_next h with ⟨_, rfl⟩ | ⟨_, rfl⟩ <;> exact .inl rfl
  | rawdat d => rcases execRawdat_next h with ⟨_, rfl⟩ | ⟨_, rfl⟩ <;> exact .inl (by simp [rawdatAccepted])
  | rawck => rcases execRawck_next h with ⟨_, rfl⟩ | ⟨_, rfl⟩ <;> exact .inl rfl
  | sync timeout =>
    rcases execSync_next h with ⟨_, rfl⟩ | ⟨hp, rfl⟩
    · exact .inl (syncStart_rxq s)
    · exact .inr ⟨by rw [hp]; rfl, syncIteration_takesAtMostFront timeout s⟩
  | recv c len timeout =>
    rcases execRecv_next h with ⟨_, rfl⟩ | ⟨hp, rfl⟩
    · exact .inl (recvStart_rxq timeout s)
    · exact .inr ⟨isRxWait_of_isRecv hp, recvIteration_takesAtMostFront c len s⟩
  | cksum l =>
    obtain ⟨_, rfl⟩ := execCksum_next h
    exact .inl rfl

theorem exec_takesAtMostFront {i : Instr} {s t : State} (h : exec i s = .next t) : TakesAtMostFront s t :=
  (exec_rxq_eq_or_takesAtMostFront h).elim .inl And.right

theorem exec_rxq_of_not_rxWait {i : Instr} {s t : State} (hp : s.phase.isRxWait = false) (h : exec i s = .next t) :
    t.rxq = s.rxq :=
  (exec_rxq_eq_or_takesAtMostFront h).resolve_right fun ⟨hwait, _⟩ => by simp [hp] at hwait

/-! ### The RX queue over the steps of each agent -/

theorem isRxWait_of_isWrite {p : Phase} (h : p.isWrite = true) : p.isRxWait = false := by
  revert h
  cases p <;> decide

theorem stepCore_takesAtMostFront {s t : State} (h : stepCore s = .next t) : TakesAtMostFront s t := by
  rcases stepCore_next h with ⟨rfl, _⟩ | ⟨i, _, _, _, hexec⟩
  · exact .inl rfl
  · exact exec_takesAtMostFront hexec

theorem stepTxAccept_rxq {s t : State} (h : stepTxAccept s = .next t) : t.rxq = s.rxq := by
  rcases stepTxAccept_next h with ⟨rfl, _⟩ | ⟨i, _, hp, _, _, hexec⟩
  · rfl
  · exact exec_rxq_of_not_rxWait (isRxWait_of_isWrite hp) hexec

theorem stepOffer_rxq {x : Transaction} {s t : State} (h : stepOffer x s = .next t) : t.rxq = s.rxq := by
  rcases stepOffer_next h with ⟨rfl, _⟩ | ⟨_, hp, _, ⟨_, _, rfl⟩ | ⟨i, _, hexec⟩⟩
  · rfl
  · rfl
  · have hwait : (latch x s).phase.isRxWait = false := by rw [latch_phase, hp]; rfl
    exact (exec_rxq_of_not_rxWait hwait hexec).trans (latch_rxq x s)

theorem perform_rxq_cases {e : Event} {s t : State} (h : perform e s = .next t) :
    t.rxq = s.rxq ∨
    (∃ b lose, e = .rxArrive b lose ∧ t.rxq = s.rxq ++ [b]) ∨
    (∃ b, e = .core ∧ s.rxq = b :: t.rxq) := by
  cases e with
  | core => exact (stepCore_takesAtMostFront h).imp_right fun ⟨b, hb⟩ => .inr ⟨b, rfl, hb⟩
  | offer x => exact .inl (stepOffer_rxq h)
  | txAccept => exact .inl (stepTxAccept_rxq h)
  | rxArrive b lose =>
    cases h
    by_cases hdrop : lose = true ∧ s.rxcap = some s.rxq.length
    · exact .inl (by rw [stepRxArrive_drops hdrop])
    · exact .inr (.inl ⟨b, lose, rfl, by rw [stepRxArrive_appends hdrop]⟩)
  | hostTake => cases h; exact .inl (stepHostTake_rxq s)
  | tick => cases h; exact .inl (stepTick_rxq s)
  | setInputs c => cases h; exact .inl rfl
  | assertReset => cases h; exact .inl rfl
  | releaseReset =>
    cases h
    left
    split <;> rfl

/-- Settles O54: a step is its agent's move, and only an arrival and the core's own step move the RX queue. -/
theorem rxQueueIsFirstInFirstOut : Obligations.RxQueueIsFirstInFirstOut := by
  intro s t h
  exact perform_rxq_cases (s := { s with sched := (nextEvent s).2 }) h

end Sys2Proof.Machine

/-! PROOFS. The family 30_encoding.md: when a transaction is illegal and what it answers (R98, R99, R202), what acceptance
latches (R85), and the layout of the response word (R96). -/

namespace Sys2Proof

/-! ### The fields of a word (R86) -/

theorem descOp_toNat (d : Word) : (descOp d).toNat = d.toNat / 2 ^ 28 := by
  have hd := d.isLt
  rw [descOp, BitVec.extractLsb'_toNat, Nat.shiftRight_eq_div_pow]
  omega

theorem descRes_toNat (d : Word) : (descRes d).toNat = d.toNat / 2 ^ 24 % 2 ^ 2 := by
  rw [descRes, BitVec.extractLsb'_toNat, Nat.shiftRight_eq_div_pow]

theorem descC_toNat (d : Word) : (descC d).toNat = d.toNat / 2 ^ 27 % 2 := Nat.toNat_testBit ..

theorem descT_toNat (d : Word) : (descT d).toNat = d.toNat / 2 ^ 26 % 2 := Nat.toNat_testBit ..

theorem descCmd_toNat (d : Word) : (descCmd d).toNat = d.toNat / 2 ^ 16 % 2 ^ 8 := by
  rw [descCmd, BitVec.extractLsb'_toNat, Nat.shiftRight_eq_div_pow]

theorem descLen_toNat (d : Word) : (descLen d).toNat = d.toNat % 2 ^ 16 := by
  rw [descLen, BitVec.extractLsb'_toNat, Nat.shiftRight_zero]

/-- The six fields are all of a word. -/
theorem word_eq_of_fields {d e : Word} (hop : descOp d = descOp e) (hres : descRes d = descRes e)
    (hc : descC d = descC e) (ht : descT d = descT e) (hcmd : descCmd d = descCmd e) (hlen : descLen d = descLen e) :
    d = e := by
  have hop := congrArg BitVec.toNat hop
  have hres := congrArg BitVec.toNat hres
  have hc := congrArg Bool.toNat hc
  have ht := congrArg Bool.toNat ht
  have hcmd := congrArg BitVec.toNat hcmd
  have hlen := congrArg BitVec.toNat hlen
  rw [descOp_toNat, descOp_toNat] at hop
  rw [descRes_toNat, descRes_toNat] at hres
  rw [descC_toNat, descC_toNat] at hc
  rw [descT_toNat, descT_toNat] at ht
  rw [descCmd_toNat, descCmd_toNat] at hcmd
  rw [descLen_toNat, descLen_toNat] at hlen
  apply BitVec.eq_of_toNat_eq
  omega

theorem word_eq_iff_fields (d e : Word) :
    d = e ↔ descOp d = descOp e ∧ descRes d = descRes e ∧ descC d = descC e ∧ descT d = descT e ∧
      descCmd d = descCmd e ∧ descLen d = descLen e :=
  ⟨fun h => by simp [h], fun ⟨hop, hres, hc, ht, hcmd, hlen⟩ => word_eq_of_fields hop hres hc ht hcmd hlen⟩

@[simp] theorem descOp_and (d m : Word) : descOp (d &&& m) = descOp d &&& descOp m := BitVec.extractLsb'_and

@[simp] theorem descRes_and (d m : Word) : descRes (d &&& m) = descRes d &&& descRes m := BitVec.extractLsb'_and

@[simp] theorem descC_and (d m : Word) : descC (d &&& m) = (descC d && descC m) := BitVec.getLsbD_and

@[simp] theorem descT_and (d m : Word) : descT (d &&& m) = (descT d && descT m) := BitVec.getLsbD_and

@[simp] theorem descCmd_and (d m : Word) : descCmd (d &&& m) = descCmd d &&& descCmd m := BitVec.extractLsb'_and

@[simp] theorem descLen_and (d m : Word) : descLen (d &&& m) = descLen d &&& descLen m := BitVec.extractLsb'_and

/-- A field whose bits are all in the mask, the mask's field being a literal. -/
theorem and_eq_self_of_eq_allOnes {w : Nat} {x m : BitVec w} (h : m = BitVec.allOnes w) : x &&& m = x := by
  rw [h, BitVec.and_allOnes]

/-! ### The row a descriptor selects (R94) -/

/-- The match and the mask of a row, field by field. -/
theorem selects_iff_fields (r : OpRow) (d : Word) : r.selects d = true ↔
    descOp d &&& descOp r.mask = descOp r.pattern ∧ descRes d &&& descRes r.mask = descRes r.pattern ∧
    (descC d && descC r.mask) = descC r.pattern ∧ (descT d && descT r.mask) = descT r.pattern ∧
    descCmd d &&& descCmd r.mask = descCmd r.pattern ∧ descLen d &&& descLen r.mask = descLen r.pattern := by
  rw [selects_iff, word_eq_iff_fields, descOp_and, descRes_and, descC_and, descT_and, descCmd_and, descLen_and]

theorem mem_opTable_iff (r : OpRow) : r ∈ opTable ↔
    r = ⟨.send,   0x10000000, 0xF7000000, .lenBytes⟩ ∨ r = ⟨.rawhc,  0x20000000, 0xFF00FFFF, .empty⟩ ∨
    r = ⟨.rawdat, 0x30000000, 0xFFFF0000, .lenBytes⟩ ∨ r = ⟨.rawck,  0x40000000, 0xFFFFFFFF, .empty⟩ ∨
    r = ⟨.sync,   0x54000000, 0xFFFFFFFF, .empty⟩ ∨ r = ⟨.recv,   0x60000000, 0xF3FF0000, .empty⟩ ∨
    r = ⟨.cksum,  0x70000000, 0xFFFF0000, .lenBytes⟩ := by
  simp [opTable]

/-- The field columns of R94, as conditions on the operation of the row. -/
theorem selects_iff_of_mem {r : OpRow} (hr : r ∈ opTable) (d : Word) : r.selects d = true ↔
    descOp d = opCode r.op ∧
    descRes d = 0 ∧
    (r.op ≠ .send → r.op ≠ .recv → descC d = false) ∧
    (r.op ≠ .recv → descT d = decide (r.op = .sync)) ∧
    (r.op ≠ .send → r.op ≠ .rawhc → descCmd d = 0) ∧
    (r.op = .rawhc ∨ r.op = .rawck ∨ r.op = .sync → descLen d = 0) := by
  rw [selects_iff_fields]
  generalize descOp d = op, descRes d = res, descC d = c, descT d = t, descCmd d = cmd, descLen d = len
  rcases (mem_opTable_iff r).mp hr with rfl | rfl | rfl | rfl | rfl | rfl | rfl
  all_goals simp [descOp, descRes, descC, descT, descCmd, descLen, opCode, and_eq_self_of_eq_allOnes]

theorem descOp_of_selects {r : OpRow} {d : Word} (hr : r ∈ opTable) (hsel : r.selects d = true) :
    descOp d = opCode r.op := ((selects_iff_of_mem hr d).mp hsel).1

theorem row_eq_of_opCode_eq : ∀ r ∈ opTable, ∀ r' ∈ opTable, opCode r.op = opCode r'.op → r = r' := by decide

theorem opAssigned_iff_exists_row : ∀ op, opAssigned op = true ↔ ∃ r ∈ opTable, op = opCode r.op := by decide

theorem opAssigned_eq_false_iff : ∀ op, opAssigned op = false ↔ op = 0 ∨ 8 ≤ op.toNat := by decide

theorem selectRow_eq_none_iff (d : Word) : selectRow d = none ↔ ∀ r ∈ opTable, ¬r.selects d = true :=
  List.find?_eq_none

theorem selectRow_of_not_opAssigned {d : Word} (h : opAssigned (descOp d) = false) : selectRow d = none := by
  refine (selectRow_eq_none_iff d).mpr fun r hr hsel => ?_
  have hassigned := (opAssigned_iff_exists_row _).mpr ⟨r, hr, descOp_of_selects hr hsel⟩
  rw [h] at hassigned
  contradiction

/-- OP decides which row a descriptor can select. -/
theorem selectRow_of_opCode {r : OpRow} {d : Word} (hr : r ∈ opTable) (hop : descOp d = opCode r.op) :
    selectRow d = if r.selects d = true then some r else none := by
  have eq_of_selects {r' : OpRow} (hr' : r' ∈ opTable) (hsel' : r'.selects d = true) : r' = r :=
    row_eq_of_opCode_eq r' hr' r hr ((descOp_of_selects hr' hsel').symm.trans hop)
  split
  · next hsel =>
    have hsome : (selectRow d).isSome = true := List.find?_isSome.mpr ⟨r, hr, hsel⟩
    obtain ⟨r', hfind⟩ := Option.isSome_iff_exists.mp hsome
    have hsel' : r'.selects d = true := List.find?_some (p := fun r => OpRow.selects r d) hfind
    rw [hfind, eq_of_selects (List.mem_of_find?_eq_some hfind) hsel']
  · next hsel => exact (selectRow_eq_none_iff d).mpr fun r' hr' hsel' => hsel (eq_of_selects hr' hsel' ▸ hsel')

/-! ### When decode refuses (R98, R99) -/

/-- A check of R98 that follows the choice of the row fails. -/
def RowRefuses (mode : LenMode) (t : Transaction) (r : OpRow) : Prop :=
  t.tmo.isSome ≠ descT t.desc ∨ payloadOk r t = false ∨ (r.op = .recv ∧ mode = .negotiated ∧ descLen t.desc ≠ 0)

/-- Past the checks the operands are there: SYNC's row has T = 1, and then there is a timeout word. -/
theorem buildInstr_ok {r : OpRow} {t : Transaction} (hr : r ∈ opTable) (hsel : r.selects t.desc = true)
    (htmo : t.tmo.isSome = descT t.desc) : ∃ i, buildInstr r.op t = .ok i := by
  obtain ⟨_, _, _, ht, _⟩ := (selects_iff_of_mem hr t.desc).mp hsel
  cases hop : r.op
  case sync =>
    have hsome : t.tmo.isSome = true := by simp [htmo, ht, hop]
    obtain ⟨timeout, htimeout⟩ := Option.isSome_iff_exists.mp hsome
    exact ⟨.sync timeout, by rw [buildInstr, htimeout]⟩
  all_goals exact ⟨_, rfl⟩

theorem decode_error_of_selectRow_none {mode : LenMode} {t : Transaction} (h : selectRow t.desc = none) :
    ∃ e, decode mode t = .error e := ⟨_, by rw [decode, h]⟩

theorem decode_error_iff_of_selects {mode : LenMode} {t : Transaction} {r : OpRow} (hr : r ∈ opTable)
    (hsel : r.selects t.desc = true) : (∃ e, decode mode t = .error e) ↔ RowRefuses mode t r := by
  rw [decode, selectRow_of_opCode hr (descOp_of_selects hr hsel), if_pos hsel]
  dsimp only
  split
  · next htmo => exact iff_of_true ⟨_, rfl⟩ (.inl htmo)
  split
  · next hpayload => exact iff_of_true ⟨_, rfl⟩ (.inr (.inl hpayload))
  split
  · next hlen => exact iff_of_true ⟨_, rfl⟩ (.inr (.inr hlen))
  · next htmo hpayload hlen =>
    obtain ⟨i, hi⟩ := buildInstr_ok hr hsel (not_not.mp htmo)
    rw [hi]
    exact iff_of_false nofun (by rintro (h | h | h) <;> contradiction)

/-- With an assigned OP, decode refuses unless its row selects the descriptor and none of the later checks fails. -/
theorem decode_error_iff_of_opCode {mode : LenMode} {t : Transaction} {r : OpRow} (hr : r ∈ opTable)
    (hop : descOp t.desc = opCode r.op) :
    (∃ e, decode mode t = .error e) ↔ (r.selects t.desc = true → RowRefuses mode t r) := by
  by_cases hsel : r.selects t.desc = true
  · rw [decode_error_iff_of_selects hr hsel, forall_prop_of_true hsel]
  · have hnone : selectRow t.desc = none := by rw [selectRow_of_opCode hr hop, if_neg hsel]
    exact iff_of_true (decode_error_of_selectRow_none hnone) fun h => absurd h hsel

end Sys2Proof

namespace Sys2Proof.Machine

/-! ### The response word (R96) -/

theorem or_eq_add_of_dvd_of_lt {x y k : Nat} (hx : 2 ^ k ∣ x) (hy : y < 2 ^ k) : x ||| y = x + y := by
  obtain ⟨a, rfl⟩ := hx
  rw [Nat.two_pow_add_eq_or_of_lt hy]

theorem responseWord_toNat (st : Status) (opx : BitVec 4) (r : Byte) (n : Count) :
    (responseWord st opx r n).toNat =
      st.code.toNat * 2 ^ 28 + opx.toNat * 2 ^ 24 + r.toNat * 2 ^ 16 + n.toNat := by
  have hst := st.code.isLt
  have hopx := opx.isLt
  have hr := r.isLt
  have hn := n.isLt
  simp only [responseWord, BitVec.toNat_or, BitVec.toNat_shiftLeft, BitVec.toNat_setWidth, Nat.shiftLeft_eq]
  rw [Nat.or_assoc, Nat.or_assoc, or_eq_add_of_dvd_of_lt (x := r.toNat % _ * _ % _) (k := 16),
    or_eq_add_of_dvd_of_lt (x := opx.toNat % _ * _ % _) (k := 24), or_eq_add_of_dvd_of_lt (k := 28)]
  all_goals omega

/-- Each field is read back: none of the four terms of the sum reaches into another's place. -/
theorem responseWord_fields (st : Status) (opx : BitVec 4) (r : Byte) (n : Count) (pl : List Byte) :
    Response.statusField ⟨responseWord st opx r n, pl⟩ = st.code ∧
    Response.opxField ⟨responseWord st opx r n, pl⟩ = opx ∧
    Response.resultField ⟨responseWord st opx r n, pl⟩ = r ∧
    Response.countField ⟨responseWord st opx r n, pl⟩ = n := by
  have hsum := responseWord_toNat st opx r n
  refine ⟨?_, ?_, ?_, ?_⟩
  all_goals
    apply BitVec.eq_of_toNat_eq
    simp only [Response.statusField, Response.opxField, Response.resultField, Response.countField,
      BitVec.extractLsb'_toNat, Nat.shiftRight_eq_div_pow]
    omega

@[simp] theorem opxField_responseWord (st : Status) (opx : BitVec 4) (r : Byte) (n : Count) (pl : List Byte) :
    Response.opxField ⟨responseWord st opx r n, pl⟩ = opx :=
  have ⟨_, hopx, _, _⟩ := responseWord_fields st opx r n pl
  hopx

/-- Settles O6: the fields lie apart in the word, and OPX is the opcode that was latched. -/
theorem responseWordLayout : Obligations.ResponseWordLayout := by
  refine ⟨fun st opx r n pl => ⟨responseWord_toNat st opx r n, responseWord_fields st opx r n pl⟩, ?echo⟩
  case echo =>
    intro st r n pl t s
    refine ⟨_, respond_rsp .., ?_⟩
    rw [opxField_responseWord]
    exact descOp_toNat t.desc

/-! ### The acceptance step (R202, R203) -/

theorem step_offer {s : State} {t : Transaction} (hr : s.rst = false) (hp : s.phase = .idle) (hw : t.wf = true)
    (es : List Event) : step (s.scheduled (.offer t :: es)) = acceptCommand t (s.scheduled es) :=
  stepOffer_accepted (s := s.scheduled es) hr hp hw

theorem exec_next_of_idle (i : Instr) {s : State} (hp : s.phase = .idle) : ∃ u, exec i s = .next u := by
  cases i
  all_goals exact ⟨_, if_pos hp⟩

/-- Whether it is legal or not, an accepted transaction is latched, and its operation leaves the latch alone. -/
theorem acceptCommand_latches {s : State} (t : Transaction) (hp : s.phase = .idle) :
    ∃ u, acceptCommand t s = .next u ∧ u.opl = Opl.ofTransaction t := by
  cases hd : decode s.cfg.lenMode t with
  | error e => exact ⟨_, acceptCommand_error hd, rfl⟩
  | ok i =>
    obtain ⟨u, hu⟩ := exec_next_of_idle i (s := latch t s) hp
    exact ⟨u, (acceptCommand_ok hd).trans hu, (exec_keeps hu).opl⟩

theorem responseWord_illegalCommand (d : Word) :
    responseWord .illegalCommand (descOp d) 0 0 = BitVec.ofNat 32 (7 * 2 ^ 28 + (d.toNat / 2 ^ 28) * 2 ^ 24) := by
  have hd := d.isLt
  apply BitVec.eq_of_toNat_eq
  rw [responseWord_toNat, descOp_toNat, BitVec.toNat_ofNat, Nat.mod_eq_of_lt (by omega)]
  simp [Status.code]

/-- Settles O3: OP selects the only row that can match, whose fixed fields and checks are the list's other cases. -/
theorem illegalExactlyInTheListedCases : Obligations.IllegalExactlyInTheListedCases := by
  refine ⟨?cases, ?answer⟩
  case cases =>
    intro mode t
    cases hassigned : opAssigned (descOp t.desc) with
    | false =>
      have herror := decode_error_of_selectRow_none (mode := mode) (selectRow_of_not_opAssigned hassigned)
      exact iff_of_true herror (.inl ((opAssigned_eq_false_iff _).mp hassigned))
    | true =>
      obtain ⟨r, hr, hop⟩ := (opAssigned_iff_exists_row _).mp hassigned
      rw [decode_error_iff_of_opCode hr hop, selects_iff_of_mem hr]
      rcases (mem_opTable_iff r).mp hr with rfl | rfl | rfl | rfl | rfl | rfl | rfl
      all_goals simp [hop, opCode, RowRefuses, payloadOk, imp_iff_not_or, or_assoc]
  case answer =>
    intro s t es e hr hp hw he
    refine ⟨_, (step_offer hr hp hw es).trans (acceptCommand_error (s := s.scheduled es) he), ?_⟩
    rw [← responseWord_illegalCommand]
    rfl

/-- RES is not latched (R85). -/
theorem oplOfTransaction_clearRes (t : Transaction) (d : Word) :
    Opl.ofTransaction { t with desc := d &&& 0xFCFFFFFF } = Opl.ofTransaction { t with desc := d } := by
  have hop : descOp (d &&& 0xFCFFFFFF) = descOp d := (descOp_and ..).trans BitVec.and_allOnes
  have hc : descC (d &&& 0xFCFFFFFF) = descC d := (descC_and ..).trans (Bool.and_true _)
  have ht : descT (d &&& 0xFCFFFFFF) = descT d := (descT_and ..).trans (Bool.and_true _)
  have hcmd : descCmd (d &&& 0xFCFFFFFF) = descCmd d := (descCmd_and ..).trans BitVec.and_allOnes
  have hlen : descLen (d &&& 0xFCFFFFFF) = descLen d := (descLen_and ..).trans BitVec.and_allOnes
  simp only [Opl.ofTransaction, hop, hc, ht, hcmd, hlen]

/-- Settles O5: what acceptance latches is a function of the fields other than RES, and RES ≠ 0 is one of R99's cases. -/
theorem acceptanceLatchesTheDescriptorFields : Obligations.AcceptanceLatchesTheDescriptorFields := by
  refine ⟨?latched, ?checked, ?notLatched⟩
  case latched =>
    intro s t es hr hp hw
    obtain ⟨u, hu, hopl⟩ := acceptCommand_latches (s := s.scheduled es) t hp
    refine ⟨u, (step_offer hr hp hw es).trans hu, ?_⟩
    rw [hopl]
    exact ⟨descOp_toNat _, rfl, rfl, descCmd_toNat _, descLen_toNat _, rfl, rfl⟩
  case checked =>
    obtain ⟨hcases, _⟩ := illegalExactlyInTheListedCases
    exact fun mode t hres => (hcases mode t).mpr (.inr (.inl hres))
  case notLatched =>
    intro t d hd
    rw [← oplOfTransaction_clearRes t d, hd]
    exact oplOfTransaction_clearRes t t.desc

end Sys2Proof.Machine

/-! PROOFS. The family 40_framer.md: the checks of SEND and its answers (R111 to R114), and what SEND and the raw-mode
operations write and answer (R113, R118, R120, R121, R124, R125). -/

namespace Sys2Proof

/-! ### The spelling of a command decodes to it (R94, R98, R102) -/

/-- The row of R94 that a command belongs to. -/
def commandRow : Instr → OpRow
  | .send _ _ _ => opTable[0]
  | .rawhc _ => opTable[1]
  | .rawdat _ => opTable[2]
  | .rawck => opTable[3]
  | .sync _ => opTable[4]
  | .recv _ _ _ => opTable[5]
  | .cksum _ => opTable[6]

theorem commandRow_mem (i : Instr) : commandRow i ∈ opTable := by
  cases i
  all_goals exact List.getElem_mem _

theorem commandRow_selects (i : Instr) : (commandRow i).selects (encode i).desc = true := by
  rw [selects_iff_of_mem (commandRow_mem i)]
  cases i
  all_goals
    simp [commandRow, opTable, encode, descOp_mkDesc, descRes_mkDesc, descC_mkDesc, descT_mkDesc, descCmd_mkDesc,
      descLen_mkDesc]

/-- A well-formed command's LEN is the length of its payload, and RECV's LEN suits the length mode. -/
theorem commandRow_not_refuses {mode : LenMode} {i : Instr} (h : i.wf mode = true) :
    ¬RowRefuses mode (encode i) (commandRow i) := by
  cases i with
  | send | rawdat | cksum =>
    simp [RowRefuses, commandRow, opTable, encode, payloadOk, descT_mkDesc, descLen_mkDesc, lenOf_toNat h]
  | recv c len timeout =>
    have hlen : mode = .declared ∨ len = 0 := of_decide_eq_true h
    rcases hlen with rfl | rfl <;>
      simp [RowRefuses, commandRow, opTable, encode, payloadOk, descT_mkDesc, descLen_mkDesc]
  | rawhc | rawck | sync => simp [RowRefuses, commandRow, opTable, encode, payloadOk, descT_mkDesc]

/-- Past the checks of R98 the answer is the row's operation with the operands it finds. -/
theorem decode_eq_buildInstr {mode : LenMode} {t : Transaction} {r : OpRow} (hr : r ∈ opTable)
    (hsel : r.selects t.desc = true) (hok : ¬RowRefuses mode t r) : decode mode t = buildInstr r.op t := by
  obtain ⟨htmo, hpayload, hlen⟩ : ¬t.tmo.isSome ≠ descT t.desc ∧ ¬payloadOk r t = false ∧
      ¬(r.op = .recv ∧ mode = .negotiated ∧ descLen t.desc ≠ 0) := by
    simpa only [RowRefuses, not_or] using hok
  rw [decode, selectRow_of_opCode hr (descOp_of_selects hr hsel), if_pos hsel]
  dsimp only
  rw [if_neg htmo, if_neg hpayload, if_neg hlen]

theorem decode_encode {mode : LenMode} {i : Instr} (h : i.wf mode = true) : decode mode (encode i) = .ok i := by
  rw [decode_eq_buildInstr (commandRow_mem i) (commandRow_selects i) (commandRow_not_refuses h)]
  cases i
  all_goals simp [commandRow, opTable, buildInstr, encode, descC_mkDesc, descCmd_mkDesc, descLen_mkDesc]

/-- The spelling of a well-formed command crosses the host port (R84). -/
theorem encode_wf {mode : LenMode} {i : Instr} (h : i.wf mode = true) : (encode i).wf = true := by
  cases i with
  | send | rawdat | cksum => exact h
  | rawhc | rawck | sync | recv => rfl

end Sys2Proof

namespace Sys2Proof.Machine

open Sys2Proof.Laws.EncodeFields (opOf)

/-! ### Responses of a latched command (R96, R204) -/

theorem opOf_encode (i : Instr) : descOp (encode i).desc = opOf i := by
  cases i
  all_goals exact descOp_mkDesc ..

theorem respond_of_latched {i : Instr} {s : State} (h : Latched i s) (st : Status) (r : Byte) (n : Count)
    (pl : List Byte) : respond st r n pl s =
      { s with rsp := some ⟨responseWord st (opOf i) r n, pl⟩, txb := [], phase := .resp } := by
  rw [respond, h, Opl.ofTransaction, opOf_encode]

/-- `respond`'s own `TXB <- [ ]` (R204) does nothing when no write is offered. -/
theorem respond_of_txb_nil {s : State} (h : s.txb = []) (st : Status) (r : Byte) (n : Count) (pl : List Byte) :
    respond st r n pl s = { s with rsp := some ⟨responseWord st s.opl.op r n, pl⟩, phase := .resp } := by
  rw [respond, ← h]

@[simp] theorem statusField_responseWord (st : Status) (opx : BitVec 4) (r : Byte) (n : Count) (pl : List Byte) :
    Response.statusField ⟨responseWord st opx r n, pl⟩ = st.code :=
  have ⟨hst, _, _, _⟩ := responseWord_fields st opx r n pl
  hst

@[simp] theorem statusOfCode_code (st : Status) : Status.ofCode st.code = some st := by cases st <;> rfl

/-! ### SEND's checks (R111, R112, R114) -/

theorem exec_of_idle_send {s : State} (hp : s.phase = .idle) (c : Bool) (cmd : Byte) (p : List Byte) :
    exec (.send c cmd p) s = .next (sendStart c cmd p s) := if_pos hp

theorem sendStart_of_wrong_count {c : Bool} {cmd : Byte} {p : List Byte} {s : State}
    (hmode : s.cfg.lenMode = .negotiated) (hcount : p.length ≠ (lookupCount s.cfg cmd).toNat) :
    sendStart c cmd p s = respond .parameterCountMismatch 0 0 [] s := if_pos ⟨hmode, hcount⟩

/-- R111 asks nothing in DECLARED mode, and the looked-up count in NEGOTIATED mode. -/
theorem not_wrong_count {cfg : Cfg} {n m : Nat} (h : cfg.lenMode = .declared ∨ n = m) :
    ¬(cfg.lenMode = .negotiated ∧ n ≠ m) := by
  rintro ⟨hneg, hne⟩
  rcases h with hdec | heq
  · simp [hdec] at hneg
  · exact hne heq

section
variable {c : Bool} {cmd : Byte} {p : List Byte} {s : State}

theorem sendStart_of_too_large (hcount : s.cfg.lenMode = .declared ∨ p.length = (lookupCount s.cfg cmd).toNat)
    (hsize : s.cfg.maxf.toNat < 2 + p.length + c.toNat) :
    sendStart c cmd p s = respond .frameTooLarge 0 0 [] s := by
  rw [sendStart, if_neg (not_wrong_count hcount), if_pos ((admissible_eq_false_iff ..).mpr hsize), raiseError_eq]

theorem sendStart_of_admissible (hcount : s.cfg.lenMode = .declared ∨ p.length = (lookupCount s.cfg cmd).toNat)
    (hsize : 2 + p.length + c.toNat ≤ s.cfg.maxf.toNat) :
    sendStart c cmd p s = offerWrite .sendWr (frameBytes s.cfg c cmd p) s := by
  have hadm : admissible s.cfg p.length c = true := (admissible_iff ..).mpr hsize
  rw [sendStart, if_neg (not_wrong_count hcount), if_neg (by simp [hadm])]

/-- With both checks passing SEND offers its frame (R113). -/
theorem exec_send_offers (hp : s.phase = .idle)
    (hcount : s.cfg.lenMode = .declared ∨ p.length = (lookupCount s.cfg cmd).toNat)
    (hsize : 2 + p.length + c.toNat ≤ s.cfg.maxf.toNat) :
    exec (.send c cmd p) s = .next (offerWrite .sendWr (frameBytes s.cfg c cmd p) s) := by
  rw [exec_of_idle_send hp, sendStart_of_admissible hcount hsize]

end

/-- Settles O10: the count check is the first of SEND's tests, and the only one that answers ParameterCountMismatch. -/
theorem sendChecksTheNegotiatedCount : Obligations.SendChecksTheNegotiatedCount := by
  refine ⟨?mismatch, ?onlyThen⟩
  case mismatch =>
    intro c cmd p s hp hl hmode hcount
    have hword : responseWord .parameterCountMismatch 1 0 0 = 0x31000000 := by decide
    rw [exec_of_idle_send hp, sendStart_of_wrong_count hmode hcount, respond_of_latched hl, opOf, hword]
  case onlyThen =>
    intro c cmd p s t r hp hcount h hr hnone
    rw [exec_of_idle_send hp] at h
    cases h
    rcases sendStart_cases c cmd p s with ⟨hmode, hne, _⟩ | ⟨_, _, hstart⟩ | ⟨_, _, hstart⟩
    · exact absurd ⟨hmode, hne⟩ (not_wrong_count hcount)
    · rw [hstart, respond_rsp] at hr
      cases hr
      simp
    · rw [hstart, offerWrite_rsp, hnone] at hr
      cases hr

/-- Settles O11: past the count check, the size check decides between the error and the offered frame. -/
theorem sendChecksTheFrameSize : Obligations.SendChecksTheFrameSize := by
  intro c cmd p s hp hl hcount
  refine ⟨fun hsize => ?tooLarge, exec_send_offers hp hcount⟩
  case tooLarge =>
    have hword : responseWord .frameTooLarge 1 0 0 = 0x41000000 := by decide
    rw [exec_of_idle_send hp, sendStart_of_too_large hcount hsize, respond_of_latched hl, opOf, hword]

/-- Settles O14: each of the two checks answers, and only when both pass is SEND_WR entered. -/
theorem failedSendOnlyAnswers : Obligations.FailedSendOnlyAnswers := by
  intro c cmd p s t hp htxb h hne
  rw [exec_of_idle_send hp] at h
  cases h
  rcases sendStart_cases c cmd p s with ⟨_, _, hstart⟩ | ⟨_, _, hstart⟩ | ⟨_, _, hstart⟩ <;> rw [hstart] at hne ⊢
  · exact ⟨respond_of_txb_nil htxb .., _, respond_rsp .., .inl (by simp)⟩
  · exact ⟨respond_of_txb_nil htxb .., _, respond_rsp .., .inr (by simp)⟩
  · exact absurd (offerWrite_phase ..) hne

/-! ### Acceptance, then the TX accept (R61, R203) -/

/-- The offer of a command's spelling runs the command on the latched state. -/
theorem step_offer_encode {i : Instr} {s : State} (hr : s.rst = false) (hp : s.phase = .idle)
    (hw : i.wf s.cfg.lenMode = true) (es : List Event) :
    step (s.scheduled (.offer (encode i) :: es)) = exec i ((latch (encode i) s).scheduled es) :=
  (step_offer hr hp (encode_wf hw) es).trans (acceptCommand_ok (s := s.scheduled es) (decode_encode hw))

/-- A command whose acceptance offers a write, and the TX accept that continues it. -/
theorem step_offer_step_txAccept {i : Instr} {p : Phase} {l : List Byte} {s u : State} {es : List Event}
    (hr : s.rst = false) (hp : s.phase = .idle) (hw : i.wf s.cfg.lenMode = true)
    (hstart : exec i ((latch (encode i) s).scheduled (.txAccept :: es)) =
      .next (offerWrite p l ((latch (encode i) s).scheduled (.txAccept :: es))))
    (hwrite : p.isWrite = true) (hl : l ≠ [])
    (hcurrent : (offerWrite p l ((latch (encode i) s).scheduled es)).current = some i)
    (haccept : exec i (offerWrite p l ((latch (encode i) s).scheduled es)) = .next u) :
    step (s.scheduled (.offer (encode i) :: .txAccept :: es)) =
      .next (offerWrite p l ((latch (encode i) s).scheduled (.txAccept :: es))) ∧
    step (offerWrite p l ((latch (encode i) s).scheduled (.txAccept :: es))) = .next u := by
  constructor
  · exact (step_offer_encode hr hp hw _).trans hstart
  · exact (stepTxAccept_current (s := offerWrite p l ((latch (encode i) s).scheduled es)) hr hwrite hl hcurrent).trans
      haccept

theorem steps_two {s t u : State} : step s = .next t ∧ step t = .next u → steps 2 s = .next u
  | ⟨hst, htu⟩ => by rw [steps_succ hst, steps_succ htu, steps_zero]

/-! ### SEND's one write (R113) -/

theorem current_sendWr {c : Bool} {cmd : Byte} {p : List Byte} {s : State} (hp : s.phase = .sendWr)
    (hl : Latched (.send c cmd p) s) : s.current = some (.send c cmd p) := by
  simp [State.current, hp, hl, Opl.ofTransaction, encode, descC_mkDesc, descCmd_mkDesc]

/-- CFG.MAXF has 16 bits, so the parameters of an admissible frame fit in a payload (R22, R84). -/
theorem payloadFits_of_admissible {cfg : Cfg} {p : List Byte} {c : Bool}
    (h : 2 + p.length + c.toNat ≤ cfg.maxf.toNat) : payloadFits p = true := by
  have hmaxf := cfg.maxf.isLt
  exact decide_eq_true (by omega)

/-- What SEND's TX accept leaves (R113), with the length of the frame as the sum that R81 gives. -/
theorem sendAccepted_eq {c : Bool} {cmd : Byte} {p : List Byte} {s : State} (hl : Latched (.send c cmd p) s) :
    sendAccepted c cmd p s =
      { s with
        txlog := s.txlog ++ [s.txb], txb := []
        rsp := some ⟨responseWord .ok 1 (if c then fold (window s.cfg cmd p) else 0)
          (BitVec.ofNat 16 (2 + p.length + c.toNat)), []⟩
        phase := .resp } := by
  rw [sendAccepted, respond_of_latched (s := acceptWrite s) hl, frameLength_eq]
  rfl

/-- Settles O13: the acceptance offers the frame, which passes unchanged to the TX accept. -/
theorem sendWritesTheWholeFrameAtOnce : Obligations.SendWritesTheWholeFrameAtOnce := by
  intro c cmd p s es hr hp hcount hsize
  obtain ⟨hoffer, haccept⟩ := step_offer_step_txAccept (i := .send c cmd p) (es := es) hr hp
    (payloadFits_of_admissible hsize) (exec_send_offers hp hcount hsize) rfl (List.cons_ne_nil _ _)
    (current_sendWr rfl rfl) rfl
  exact ⟨_, _, hoffer, rfl, rfl, haccept, sendAccepted_eq rfl⟩

/-! ### The writes of the raw-mode operations (R118, R121, R124) -/

theorem current_rawhcWr {cmd : Byte} {s : State} (hp : s.phase = .rawhcWr) (hl : Latched (.rawhc cmd) s) :
    s.current = some (.rawhc cmd) := by
  simp [State.current, hp, hl, Opl.ofTransaction, encode, descCmd_mkDesc]

theorem current_rawdatWr {d : List Byte} {s : State} (hp : s.phase = .rawdatWr) (hl : Latched (.rawdat d) s) :
    s.current = some (.rawdat d) := by
  simp [State.current, hp, hl, Opl.ofTransaction, encode]

theorem exec_rawhc_offers {cmd : Byte} {s : State} (hp : s.phase = .idle) :
    exec (.rawhc cmd) s = .next (offerWrite .rawhcWr [s.cfg.hdr, cmd] s) := if_pos hp

theorem exec_rawck_offers {s : State} (hp : s.phase = .idle) :
    exec .rawck s = .next (offerWrite .rawckWr [s.txacc] s) := if_pos hp

theorem exec_of_idle_rawdat {s : State} (hp : s.phase = .idle) (d : List Byte) :
    exec (.rawdat d) s = .next (rawdatStart d s) := if_pos hp

theorem rawdatStart_nil (s : State) : rawdatStart [] s = respond .ok 0 0 [] s := if_pos rfl

theorem rawdatStart_of_ne_nil {d : List Byte} (hd : d ≠ []) (s : State) :
    rawdatStart d s = offerWrite .rawdatWr d s := if_neg hd

theorem exec_rawdat_offers {d : List Byte} {s : State} (hp : s.phase = .idle) (hd : d ≠ []) :
    exec (.rawdat d) s = .next (offerWrite .rawdatWr d s) := by
  rw [exec_of_idle_rawdat hp, rawdatStart_of_ne_nil hd]

theorem frameChecksum_nil_included {cfg : Cfg} (h : cfg.ckWin = .hdrIncluded) (cmd : Byte) :
    frameChecksum cfg cmd [] = cfg.hdr ^^^ cmd := by simp [frameChecksum, window_included h]

theorem frameChecksum_nil_excluded {cfg : Cfg} (h : cfg.ckWin = .hdrExcluded) (cmd : Byte) :
    frameChecksum cfg cmd [] = cmd := by simp [frameChecksum, window_excluded h]

/-- What RAWHC's TX accept leaves (R118). -/
theorem rawhcAccepted_eq {cmd : Byte} {s : State} (hl : Latched (.rawhc cmd) s) :
    rawhcAccepted cmd s =
      { s with
        txlog := s.txlog ++ [s.txb], txb := [], txacc := frameChecksum s.cfg cmd []
        rsp := some ⟨0x02000002, []⟩, phase := .resp } := by
  have hword : responseWord .ok 2 0 2 = 0x02000002 := by decide
  rw [rawhcAccepted, respond_of_latched (s := { acceptWrite s with txacc := _ }) hl, opOf, hword]
  rfl

/-- What RAWDAT's TX accept leaves (R121). -/
theorem rawdatAccepted_eq {d : List Byte} {s : State} (hl : Latched (.rawdat d) s) :
    rawdatAccepted d s =
      { s with
        txlog := s.txlog ++ [s.txb], txb := [], txacc := s.txacc ^^^ fold d
        rsp := some ⟨responseWord .ok 3 0 (lenOf d), []⟩, phase := .resp } :=
  respond_of_latched (s := { acceptWrite s with txacc := _ }) hl ..

/-- What RAWCK's TX accept leaves (R124). -/
theorem rawckAccepted_eq {s : State} (hl : Latched .rawck s) :
    rawckAccepted s =
      { s with
        txlog := s.txlog ++ [s.txb], txb := []
        rsp := some ⟨responseWord .ok 4 s.txacc 1, []⟩, phase := .resp } :=
  respond_of_latched (s := acceptWrite s) hl ..

/-- RAWHC, from its offer to its TX accept (R118). -/
theorem steps_rawhc (cmd : Byte) {s : State} (hr : s.rst = false) (hp : s.phase = .idle) (es : List Event) :
    steps 2 (s.scheduled (.offer (encode (.rawhc cmd)) :: .txAccept :: es)) =
      .next { s with
        opl := Opl.ofTransaction (encode (.rawhc cmd))
        txlog := s.txlog ++ [[s.cfg.hdr, cmd]], txb := [], txacc := frameChecksum s.cfg cmd []
        rsp := some ⟨0x02000002, []⟩, phase := .resp, sched := es } := by
  have hrun := step_offer_step_txAccept (i := .rawhc cmd) (es := es) hr hp rfl (exec_rawhc_offers hp) rfl
    (List.cons_ne_nil _ _) (current_rawhcWr rfl rfl) rfl
  rw [steps_two hrun, rawhcAccepted_eq rfl]
  rfl

/-- What a RAWDAT with data leaves (R121), but for the schedule. -/
def afterRawdat (d : List Byte) (s : State) : State :=
  { s with
    opl := Opl.ofTransaction (encode (.rawdat d))
    txlog := s.txlog ++ [d], txb := [], txacc := s.txacc ^^^ fold d
    rsp := some ⟨responseWord .ok 3 0 (lenOf d), []⟩, phase := .resp }

/-- RAWDAT with data, from its offer to its TX accept (R121). -/
theorem steps_rawdat {d : List Byte} {s : State} (hr : s.rst = false) (hp : s.phase = .idle) (hd : d ≠ [])
    (hlen : d.length ≤ 65535) (es : List Event) :
    steps 2 (s.scheduled (.offer (encode (.rawdat d)) :: .txAccept :: es)) = .next ((afterRawdat d s).scheduled es) := by
  have hrun := step_offer_step_txAccept (i := .rawdat d) (es := es) hr hp (decide_eq_true hlen)
    (exec_rawdat_offers hp hd) rfl hd (current_rawdatWr rfl rfl) rfl
  rw [steps_two hrun, rawdatAccepted_eq rfl]
  rfl

/-- RAWCK, from its offer to its TX accept (R124). -/
theorem steps_rawck {s : State} (hr : s.rst = false) (hp : s.phase = .idle) (es : List Event) :
    steps 2 (s.scheduled (.offer (encode .rawck) :: .txAccept :: es)) =
      .next { s with
        opl := Opl.ofTransaction (encode .rawck)
        txlog := s.txlog ++ [[s.txacc]], txb := []
        rsp := some ⟨responseWord .ok 4 s.txacc 1, []⟩, phase := .resp, sched := es } := by
  have hrun := step_offer_step_txAccept (i := .rawck) (es := es) hr hp rfl (exec_rawck_offers hp) rfl
    (List.cons_ne_nil _ _) rfl rfl
  rw [steps_two hrun, rawckAccepted_eq rfl]
  rfl

/-- Settles O16: TXACC is the checksum of a frame with no parameters, under either window. -/
theorem rawhcWritesHeaderAndCommand : Obligations.RawhcWritesHeaderAndCommand := by
  intro cmd s es hr hp
  rw [steps_rawhc cmd hr hp]
  cases hwin : s.cfg.ckWin with
  | hdrIncluded => rw [frameChecksum_nil_included hwin]
  | hdrExcluded => rw [frameChecksum_nil_excluded hwin]

/-- Settles O21: the byte offered is TXACC, which the TX accept leaves alone and answers. -/
theorem rawckWritesTheAccumulator : Obligations.RawckWritesTheAccumulator := fun _ es hr hp => steps_rawck hr hp es

theorem takeResponse_scheduled (s : State) (es : List Event) :
    takeResponse (s.scheduled es) = (takeResponse s).scheduled es := by
  cases h : s.rsp with
  | none => simp [takeResponse, h]
  | some r => simp [takeResponse, State.scheduled, h]

/-- The Host's take of the held response (R206). -/
theorem step_hostTake {s : State} (hr : s.rst = false) (hp : s.phase = .resp) (es : List Event) :
    step (s.scheduled (.hostTake :: es)) = .next ((takeResponse s).scheduled es) := by
  rw [step_scheduled_cons, perform, stepHostTake, if_pos ⟨hr, hp⟩, takeResponse_scheduled]

/-- Settles O19: the second run starts from what the first left, once the Host has taken its response. -/
theorem rawdatFoldsAccumulate : Obligations.RawdatFoldsAccumulate := by
  intro d d' s es hr hp hd hlen hd' hlen'
  have hfirst := steps_rawdat hr hp hd hlen (.hostTake :: .offer (encode (.rawdat d')) :: .txAccept :: es)
  have htake := step_hostTake (s := afterRawdat d s) hr rfl (.offer (encode (.rawdat d')) :: .txAccept :: es)
  have hsecond := steps_rawdat (s := takeResponse (afterRawdat d s)) hr rfl hd' hlen' es
  exact ⟨_, _, hfirst, rfl, rfl, rfl, (steps_succ htake).trans hsecond,
    by simp [afterRawdat, takeResponse, State.scheduled]⟩

/-- Settles O17: with no data the acceptance step itself responds, and there is no write to withdraw. -/
theorem emptyRawdatAnswersAtOnce : Obligations.EmptyRawdatAnswersAtOnce := by
  intro s es hr hp htxb
  have hword : responseWord .ok 3 0 0 = 0x03000000 := by decide
  have hstart := exec_of_idle_rawdat (s := (latch (encode (.rawdat [])) s).scheduled es) hp []
  rw [step_offer_encode hr hp rfl, hstart, rawdatStart_nil, respond_of_latched rfl, opOf, hword, htxb]
  rfl

/-! ### The raw-mode operations make no checks (R125) -/

/-- The state under a configuration with another CFG.MAXF and CFG.LOOKUP. -/
def withLimits (m : Count) (l : Vector Count 256) (s : State) : State :=
  { s with cfg := { s.cfg with maxf := m, lookup := l } }

theorem rawdatStart_withLimits (m : Count) (l : Vector Count 256) (d : List Byte) (s : State) :
    rawdatStart d (withLimits m l s) = withLimits m l (rawdatStart d s) := by
  rcases eq_or_ne d [] with rfl | hd
  · rfl
  · rw [rawdatStart_of_ne_nil hd, rawdatStart_of_ne_nil hd]
    rfl

/-- CFG.HDR and CFG.CKWIN, which the two states share, are all that a raw-mode operation reads of CFG. -/
theorem exec_withLimits_of_isRaw {i : Instr} (h : isRaw i = true) (m : Count) (l : Vector Count 256) (s : State) :
    exec i (withLimits m l s) = mapNext (withLimits m l) (exec i s) := by
  cases i with
  | rawhc cmd =>
    simp only [exec, execRawhc, apply_ite (mapNext (withLimits m l))]
    rfl
  | rawdat d =>
    simp only [exec, execRawdat, apply_ite (mapNext (withLimits m l)), rawdatStart_withLimits]
    rfl
  | rawck =>
    simp only [exec, execRawck, apply_ite (mapNext (withLimits m l))]
    rfl
  | send | sync | recv | cksum => cases h

/-- A raw-mode operation leaves RSP alone or ends with the status OK. -/
theorem exec_rsp_of_isRaw {i : Instr} {s t : State} (h : isRaw i = true) (hexec : exec i s = .next t) :
    t.rsp = s.rsp ∨ ∃ r n pl, t.rsp = some ⟨responseWord .ok s.opl.op r n, pl⟩ := by
  cases i with
  | rawhc cmd =>
    rcases execRawhc_next hexec with ⟨_, rfl⟩ | ⟨_, rfl⟩
    · exact .inl rfl
    · exact .inr ⟨_, _, _, rfl⟩
  | rawdat d =>
    rcases execRawdat_next hexec with ⟨_, rfl⟩ | ⟨_, rfl⟩
    · rcases eq_or_ne d [] with rfl | hd
      · exact .inr ⟨_, _, _, rfl⟩
      · exact .inl (by rw [rawdatStart_of_ne_nil hd, offerWrite_rsp])
    · exact .inr ⟨_, _, _, rfl⟩
  | rawck =>
    rcases execRawck_next hexec with ⟨_, rfl⟩ | ⟨_, rfl⟩
    · exact .inl rfl
    · exact .inr ⟨_, _, _, rfl⟩
  | send | sync | recv | cksum => cases h

/-- Settles O23: the raw-mode operations read CFG.HDR and CFG.CKWIN alone, and every response they make is OK. -/
theorem rawOperationsMakeNoChecks : Obligations.RawOperationsMakeNoChecks := by
  intro i s hraw
  refine ⟨fun m l => exec_withLimits_of_isRaw hraw m l s, fun t r hexec hrsp hnone => ?status⟩
  case status =>
    rcases exec_rsp_of_isRaw hraw hexec with hkeep | ⟨b, n, pl, hok⟩
    · rw [hkeep, hnone] at hrsp
      cases hrsp
    · rw [hok] at hrsp
      cases hrsp
      simp

end Sys2Proof.Machine

/-! PROOFS. The family 41_synchronizer.md: SYNC's acceptance (R131, R132), its scan step (R134), and what it does with a
header (R133). -/

namespace Sys2Proof.Machine

open Sys2Proof.Laws.EncodeFields (opOf)

/-! ### What SYNC runs in each of its phases -/

theorem exec_of_idle_sync {s : State} (hp : s.phase = .idle) (timeout : Word) :
    exec (.sync timeout) s = .next (syncStart s) := if_pos hp

theorem exec_of_scan_sync {s : State} (hp : s.phase = .syncScan) (timeout : Word) :
    exec (.sync timeout) s = .next (syncIteration timeout s) := by
  have hidle : s.phase ≠ .idle := by rw [hp]; decide
  exact (if_neg hidle).trans (if_pos hp)

/-! ### Acceptance (R131, R132) -/

theorem syncStart_of_short {s : State} (hstrict : s.cfg.syncStrict = true) (hlen : s.rxq.length < 3) :
    syncStart s = respond .insufficientData 0 0 [] s := if_pos ⟨hstrict, hlen⟩

theorem syncStart_of_enough {s : State} (h : s.cfg.syncStrict = false ∨ 3 ≤ s.rxq.length) :
    syncStart s = { s with disc := 0, elapsed := 0, phase := .syncScan } :=
  if_neg (not_and_or.mpr (h.imp Bool.eq_false_iff.mp Nat.not_lt.mpr))

/-- What SYNC's acceptance can come to. -/
theorem syncStart_cases (s : State) :
    (s.cfg.syncStrict = true ∧ s.rxq.length < 3 ∧ syncStart s = respond .insufficientData 0 0 [] s) ∨
    ((s.cfg.syncStrict = false ∨ 3 ≤ s.rxq.length) ∧
      syncStart s = { s with disc := 0, elapsed := 0, phase := .syncScan }) := by
  by_cases h : s.cfg.syncStrict = true ∧ s.rxq.length < 3
  · obtain ⟨hstrict, hlen⟩ := h
    exact .inl ⟨hstrict, hlen, syncStart_of_short hstrict hlen⟩
  · have henough := (not_and_or.mp h).imp Bool.eq_false_iff.mpr Nat.not_lt.mp
    exact .inr ⟨henough, syncStart_of_enough henough⟩

/-! ### The tests of a scan step (R134) -/

theorem expired_of_lt {limit : Word} {e : Ticks} (h : limit.toNat < e.toNat) : expired limit e = true := by
  rw [expired_eq_decide, decide_eq_true h]

theorem not_expired_of_le {limit : Word} {e : Ticks} (h : e.toNat ≤ limit.toNat) : ¬expired limit e = true := by
  rw [expired_eq_decide, decide_eq_true_iff]
  exact Nat.not_lt.mpr h

section
variable {timeout : Word} {s : State}

theorem syncIteration_of_header (h : s.rxq.head? = some s.cfg.hdr) :
    syncIteration timeout s = respond .ok 0 s.disc [] s := if_pos h

theorem syncIteration_of_expired (h : s.rxq.head? ≠ some s.cfg.hdr) (he : timeout.toNat < s.elapsed.toNat) :
    syncIteration timeout s = respond .noHeaderFound 0 0 [] s := (if_neg h).trans (if_pos (expired_of_lt he))

theorem syncIteration_of_waiting (h : s.rxq.head? ≠ some s.cfg.hdr) (he : s.elapsed.toNat ≤ timeout.toNat) :
    syncIteration timeout s = syncDiscard s := (if_neg h).trans (if_neg (not_expired_of_le he))

end

theorem syncDiscard_cons {s : State} {b : Byte} {l : List Byte} (h : s.rxq = b :: l) :
    syncDiscard s = { s with rxq := l, disc := discardCount s.disc } := by rw [syncDiscard, rxPop_cons h]

theorem syncDiscard_nil {s : State} (h : s.rxq = []) : syncDiscard s = s := by rw [syncDiscard, rxPop_nil h]

/-- Settles O27: past the two tests that answer, the queue decides between the discard and the poll. -/
theorem scanStepTestsInOrder : Obligations.ScanStepTestsInOrder := by
  intro timeout s hp hl
  rw [exec_of_scan_sync hp]
  refine ⟨fun hhdr => ?header, fun hhdr he => ?expiry, fun b rest hq hb he => ?discard, fun hq he => ?poll⟩
  case header => rw [syncIteration_of_header hhdr, respond_of_latched hl, opOf]
  case expiry =>
    have hword : responseWord .noHeaderFound 5 0 0 = 0x15000000 := by decide
    rw [syncIteration_of_expired hhdr he, respond_of_latched hl, opOf, hword]
  case discard =>
    have hhdr : s.rxq.head? ≠ some s.cfg.hdr := by simpa [hq] using hb
    exact ⟨_, discardCount_toNat s.disc, by rw [syncIteration_of_waiting hhdr he, syncDiscard_cons hq]⟩
  case poll =>
    have hhdr : s.rxq.head? ≠ some s.cfg.hdr := by simp [hq]
    rw [syncIteration_of_waiting hhdr he, syncDiscard_nil hq]

/-! ### SYNC and RTO (R131) -/

/-- The state with another RTO. -/
def withRto (r : Word) (s : State) : State := { s with rto := r }

theorem syncStart_withRto (r : Word) (s : State) : syncStart (withRto r s) = withRto r (syncStart s) := by
  simp only [syncStart, apply_ite (withRto r)]
  rfl

theorem syncDiscard_withRto (r : Word) (s : State) : syncDiscard (withRto r s) = withRto r (syncDiscard s) := by
  cases hq : s.rxq with
  | nil => rw [syncDiscard_nil hq, syncDiscard_nil (s := withRto r s) hq]
  | cons b l =>
    rw [syncDiscard_cons hq, syncDiscard_cons (s := withRto r s) hq]
    rfl

theorem syncIteration_withRto (timeout r : Word) (s : State) :
    syncIteration timeout (withRto r s) = withRto r (syncIteration timeout s) := by
  simp only [syncIteration, apply_ite (withRto r), syncDiscard_withRto]
  rfl

theorem exec_sync_withRto (timeout r : Word) (s : State) :
    exec (.sync timeout) (withRto r s) = mapNext (withRto r) (exec (.sync timeout) s) := by
  simp only [exec, execSync, apply_ite (mapNext (withRto r)), syncStart_withRto, syncIteration_withRto]
  rfl

/-- Settles O25: past the strict check acceptance starts the scan, and no test of SYNC is on RTO. -/
theorem syncStartsTheScan : Obligations.SyncStartsTheScan := by
  refine ⟨?start, exec_sync_withRto⟩
  case start =>
    intro timeout s hp henough
    rw [exec_of_idle_sync hp, syncStart_of_enough henough]

/-! ### What SYNC answers (R132, R133) -/

theorem statusOfCode_of_respond {st : Status} {b : Byte} {n : Count} {pl : List Byte} {s : State} {r : Response}
    (h : (respond st b n pl s).rsp = some r) : Status.ofCode r.statusField = some st := by
  rw [respond_rsp] at h
  cases h
  simp

/-- Each answer of SYNC, with what it is answered on. -/
theorem exec_sync_answers {timeout : Word} {s t : State} {r : Response} (h : exec (.sync timeout) s = .next t)
    (hr : t.rsp = some r) (hnone : s.rsp = none) :
    (s.phase = .idle ∧ s.cfg.syncStrict = true ∧ s.rxq.length < 3 ∧ t = respond .insufficientData 0 0 [] s) ∨
    (s.phase = .syncScan ∧ s.rxq.head? = some s.cfg.hdr ∧ t = respond .ok 0 s.disc [] s) ∨
    (s.phase = .syncScan ∧ t = respond .noHeaderFound 0 0 [] s) := by
  have hne : t.rsp ≠ s.rsp := by simp [hr, hnone]
  rcases execSync_next h with ⟨hp, rfl⟩ | ⟨hp, rfl⟩
  · rcases syncStart_cases s with ⟨hstrict, hlen, hstart⟩ | ⟨_, hstart⟩
    · exact .inl ⟨hp, hstrict, hlen, hstart⟩
    · exact absurd (by rw [hstart]) hne
  · rcases syncIteration_cases timeout s with ⟨hhdr, hiter⟩ | ⟨_, _, hiter⟩ | ⟨_, _, _, _, _, hiter⟩ | ⟨_, _, hiter⟩
    · exact .inr (.inl ⟨hp, hhdr, hiter⟩)
    · exact .inr (.inr ⟨hp, hiter⟩)
    · exact absurd (by rw [hiter]) hne
    · exact absurd (by rw [hiter]) hne

/-- Settles O26: InsufficientData is the answer of the acceptance step alone, on the strict check alone. -/
theorem strictSyncNeedsThreeBytes : Obligations.StrictSyncNeedsThreeBytes := by
  refine ⟨?short, ?onlyThen⟩
  case short =>
    intro timeout s hp hl hstrict hlen
    have hword : responseWord .insufficientData 5 0 0 = 0x25000000 := by decide
    rw [exec_of_idle_sync hp, syncStart_of_short hstrict hlen, respond_of_latched hl, opOf, hword]
  case onlyThen =>
    intro timeout s t r hnone hor h hr
    rcases exec_sync_answers h hr hnone with ⟨hp, hstrict, hlen, _⟩ | ⟨_, _, rfl⟩ | ⟨_, rfl⟩
    · rcases hor with hscan | hoff | henough
      · simp [hp] at hscan
      · simp [hstrict] at hoff
      · exact absurd hlen (Nat.not_lt.mpr henough)
    · simp [statusOfCode_of_respond hr]
    · simp [statusOfCode_of_respond hr]

/-! ### SYNC and the header (R133) -/

/-- SYNC takes nothing from the queue, or a front byte that is not the header. -/
theorem exec_sync_rxq {timeout : Word} {s t : State} (h : exec (.sync timeout) s = .next t) :
    t.rxq = s.rxq ∨ ∃ b, b ≠ s.cfg.hdr ∧ s.rxq = b :: t.rxq := by
  rcases execSync_next h with ⟨_, rfl⟩ | ⟨_, rfl⟩
  · exact .inl (syncStart_rxq s)
  · rcases syncIteration_cases timeout s with ⟨_, hiter⟩ | ⟨_, _, hiter⟩ | ⟨b, l, hq, hb, _, hiter⟩ | ⟨_, _, hiter⟩ <;>
      rw [hiter]
    · exact .inl rfl
    · exact .inl rfl
    · exact .inr ⟨b, hb, hq⟩
    · exact .inl rfl

theorem exec_sync_of_ok {timeout : Word} {s t : State} {r : Response} (h : exec (.sync timeout) s = .next t)
    (hr : t.rsp = some r) (hnone : s.rsp = none) (hok : Status.ofCode r.statusField = some .ok) :
    s.rxq.head? = some s.cfg.hdr ∧ t.rxq = s.rxq := by
  rcases exec_sync_answers h hr hnone with ⟨_, _, _, rfl⟩ | ⟨_, hhdr, rfl⟩ | ⟨_, rfl⟩
  · simp [statusOfCode_of_respond hr] at hok
  · exact ⟨hhdr, respond_rxq ..⟩
  · simp [statusOfCode_of_respond hr] at hok

theorem rxPop_map_fst (s : State) : s.rxPop.map Prod.fst = s.rxq.head? := by
  cases hq : s.rxq with
  | nil => rw [rxPop_nil hq]; rfl
  | cons b l => rw [rxPop_cons hq]; rfl

/-- Settles O28: only the discard of a scan step takes a byte, and the answer OK is given on the header at the front,
which arrivals leave there. -/
theorem syncNeverConsumesAHeader : Obligations.SyncNeverConsumesAHeader := by
  intro timeout s t h
  refine ⟨exec_sync_rxq h, fun r hr hnone hok => ?found⟩
  case found =>
    obtain ⟨hhdr, hq⟩ := exec_sync_of_ok h hr hnone hok
    refine ⟨hq, hq ▸ hhdr, fun l => ?_⟩
    rw [rxPop_map_fst, List.head?_append, hq, hhdr]
    rfl

end Sys2Proof.Machine

/-! PROOFS. The family 42_decoder.md: the command read of RECV (R154 to R157), and what ends a RECV (R160). -/

namespace Sys2Proof.Machine

/-! ### What a step of RECV runs -/

theorem exec_of_isRecv_recv {s : State} (hp : s.phase.isRecv = true) (c : Bool) (len : Count) (timeout : Option Word) :
    exec (.recv c len timeout) s = .next (recvIteration c len s) := by
  have hidle : s.phase ≠ .idle := by
    intro h
    simp [h, Phase.isRecv] at hp
  exact (if_neg hidle).trans (if_pos hp)

theorem exec_of_recvCmd_recv {s : State} (hp : s.phase = .recvCmd) (c : Bool) (len : Count) (timeout : Option Word) :
    exec (.recv c len timeout) s = .next (recvByte (recvCommandRead c len) s) := by
  rw [exec_of_isRecv_recv (by rw [hp]; rfl), recvIteration, hp]

/-! ### The read of one byte (R57, R152) -/

/-- The state in which a one-byte read has taken its byte `b`, with `l` left in the queue. -/
def afterByte (b : Byte) (l : List Byte) (s : State) : State := { s with rxq := l, rdbuf := [b] }

section
variable {s : State} (next : Byte → State → State)

/-- The byte of a one-byte read is the last it wants, so the same step goes on with it. -/
theorem recvByte_of_cons (hdn : s.rdn = 1) (hbuf : s.rdbuf = []) {b : Byte} {l : List Byte} (hq : s.rxq = b :: l) :
    recvByte next s = next b (afterByte b l s) := by
  rw [recvByte, readIteration_last hq (by simp [hdn, hbuf]), hbuf]
  rfl

theorem recvByte_of_expired (hq : s.rxq = []) (he : s.rto.toNat < s.elapsed.toNat) :
    recvByte next s = finishRecv .incomplete 0 0 [] s := by
  rw [recvByte, readIteration_nil hq, if_pos (expired_of_lt he)]
  rfl

theorem recvByte_of_waiting (hq : s.rxq = []) (he : s.elapsed.toNat ≤ s.rto.toNat) : recvByte next s = s := by
  rw [recvByte, readIteration_nil hq, if_neg (not_expired_of_le he)]

end

/-! ### The end of a latched RECV (R160) -/

/-- RECV's `finish` of a latched command: RTO and the response in one step (R160, R204). -/
theorem finishRecv_of_latched {c : Bool} {len : Count} {timeout : Option Word} {s : State}
    (h : Latched (.recv c len timeout) s) (st : Status) (r : Byte) (n : Count) (pl : List Byte) :
    finishRecv st r n pl s =
      { s with
        rto := s.cfg.defaultRto, rsp := some ⟨responseWord st 6 r n, pl⟩, txb := [], phase := .resp } :=
  respond_of_latched (s := { s with rto := s.cfg.defaultRto }) h ..

/-- An expired read of a latched RECV answers Incomplete (R153, R154, R157, R158). -/
theorem finishRecv_incomplete_of_latched {c : Bool} {len : Count} {timeout : Option Word} {s : State}
    (h : Latched (.recv c len timeout) s) :
    finishRecv .incomplete 0 0 [] s =
      { s with rto := s.cfg.defaultRto, rsp := some ⟨0x56000000, []⟩, txb := [], phase := .resp } := by
  have hword : responseWord .incomplete 6 0 0 = 0x56000000 := by decide
  rw [finishRecv_of_latched h, hword]

/-! ### After the command byte (R154 to R157) -/

section
variable {c : Bool} {len : Count} {timeout : Option Word} {cb : Byte} {s : State}

theorem recvCommandRead_of_too_large (hl : Latched (.recv c len timeout) s)
    (h : s.cfg.maxf.toNat < 2 + (paramCount s.cfg cb len).toNat + c.toNat) :
    recvCommandRead c len cb s =
      { s with
        rcmd := cb, pcnt := paramCount s.cfg cb len, rto := s.cfg.defaultRto
        rsp := some ⟨0x46000000, []⟩, txb := [], phase := .resp } := by
  have hword : responseWord .frameTooLarge 6 0 0 = 0x46000000 := by decide
  have hbig := (admissible_eq_false_iff ..).mpr h
  rcases recvCommandRead_cases c len cb s with ⟨_, hread⟩ | ⟨hadm, _, _⟩ | ⟨hadm, _, _⟩
  · rw [hread, finishRecv_of_latched (s := { s with rcmd := cb, pcnt := _ }) hl, hword]
  · simp [hbig] at hadm
  · simp [hbig] at hadm

theorem recvCommandRead_of_params (h : 2 + (paramCount s.cfg cb len).toNat + c.toNat ≤ s.cfg.maxf.toNat)
    (hne : paramCount s.cfg cb len ≠ 0) :
    recvCommandRead c len cb s =
      { s with
        rcmd := cb, pcnt := paramCount s.cfg cb len, phase := .recvPar, rdn := paramCount s.cfg cb len, rdbuf := []
        elapsed := 0 } := by
  have hadm := (admissible_iff ..).mpr h
  rcases recvCommandRead_cases c len cb s with ⟨hbig, _⟩ | ⟨_, _, hread⟩ | ⟨_, hzero, _⟩
  · simp [hadm] at hbig
  · exact hread
  · exact absurd hzero hne

/-- With no parameters the block read succeeds at once (R58), in the same step. -/
theorem recvCommandRead_of_no_params (h : 2 + (paramCount s.cfg cb len).toNat + c.toNat ≤ s.cfg.maxf.toNat)
    (hzero : paramCount s.cfg cb len = 0) :
    recvCommandRead c len cb s =
      recvParamsRead c [] (startRead 0 { s with rcmd := cb, pcnt := 0, phase := .recvPar }) := by
  have hadm := (admissible_iff ..).mpr h
  rcases recvCommandRead_cases c len cb s with ⟨hbig, _⟩ | ⟨_, hne, _⟩ | ⟨_, _, hread⟩
  · simp [hadm] at hbig
  · exact absurd hzero hne
  · exact hread

theorem recvCommandRead_of_no_params_checksummed
    (h : 2 + (paramCount s.cfg cb len).toNat + true.toNat ≤ s.cfg.maxf.toNat) (hzero : paramCount s.cfg cb len = 0) :
    recvCommandRead true len cb s =
      { s with rcmd := cb, pcnt := 0, pbuf := [], phase := .recvCks, rdn := 1, rdbuf := [], elapsed := 0 } :=
  (recvCommandRead_of_no_params h hzero).trans (recvParamsRead_true ..)

theorem recvCommandRead_of_no_params_plain (hl : Latched (.recv false len timeout) s)
    (h : 2 + (paramCount s.cfg cb len).toNat + false.toNat ≤ s.cfg.maxf.toNat) (hzero : paramCount s.cfg cb len = 0) :
    recvCommandRead false len cb s =
      { s with
        rcmd := cb, pcnt := 0, pbuf := [], rdn := 0, rdbuf := [], elapsed := 0
        rto := s.cfg.defaultRto, rsp := some ⟨responseWord .ok 6 cb 0, []⟩, txb := [], phase := .resp } :=
  (recvCommandRead_of_no_params h hzero).trans (finishRecv_of_latched (s := { s with
    rcmd := cb, pcnt := 0, phase := .recvPar, rdn := 0, rdbuf := [], elapsed := 0, pbuf := [] }) hl ..)

end

/-- Settles O33: the byte is handed on in the step that takes it; the size check, then whether the count is 0, decides
what that step leaves. -/
theorem recvCommandStep : Obligations.RecvCommandStep := by
  intro c len timeout s hp hl hdn hbuf
  rw [exec_of_recvCmd_recv hp]
  refine ⟨fun cmd rest n hq hn => ?byte, fun hq he => ?expiry, fun hq he => ?poll⟩
  case byte =>
    obtain rfl : n = paramCount s.cfg cmd len := hn
    rw [recvByte_of_cons _ hdn hbuf hq]
    refine ⟨fun hbig => ?tooLarge, fun hfits hne => ?params, fun hfits hzero hc => ?checksum,
      fun hfits hzero hc => ?ok⟩
    case tooLarge => exact congrArg _ (recvCommandRead_of_too_large (s := afterByte cmd rest s) hl hbig)
    case params => exact congrArg _ (recvCommandRead_of_params (s := afterByte cmd rest s) hfits hne)
    case checksum =>
      subst hc
      exact congrArg _ (recvCommandRead_of_no_params_checksummed (s := afterByte cmd rest s) hfits hzero)
    case ok =>
      subst hc
      exact congrArg _ (recvCommandRead_of_no_params_plain (s := afterByte cmd rest s) hl hfits hzero)
  case expiry => rw [recvByte_of_expired _ hq he, finishRecv_incomplete_of_latched hl]
  case poll => rw [recvByte_of_waiting _ hq he]

/-! ### What ends a RECV (R160)

Every path through a read phase either stays in RECV or runs `finishRecv`. -/

/-- `t` is in a phase of RECV, or is what `finishRecv` leaves under the configuration `cfg`. -/
def ContinuesOrFinishes (cfg : Cfg) (t : State) : Prop :=
  t.phase.isRecv = true ∨ ∃ st r n pl u, u.cfg = cfg ∧ t = finishRecv st r n pl u

theorem finishRecv_continuesOrFinishes (st : Status) (r : Byte) (n : Count) (pl : List Byte) (s : State) :
    ContinuesOrFinishes s.cfg (finishRecv st r n pl s) := .inr ⟨st, r, n, pl, s, rfl, rfl⟩

theorem recvHeaderRead_continuesOrFinishes (h : Byte) (s : State) :
    ContinuesOrFinishes s.cfg (recvHeaderRead h s) := by
  rcases recvHeaderRead_cases h s with ⟨_, h⟩ | ⟨_, h⟩ <;> rw [h]
  · exact finishRecv_continuesOrFinishes ..
  · exact .inl rfl

theorem recvParamsRead_continuesOrFinishes (c : Bool) (p : List Byte) (s : State) :
    ContinuesOrFinishes s.cfg (recvParamsRead c p s) := by
  cases c with
  | false => exact finishRecv_continuesOrFinishes (s := { s with pbuf := p }) ..
  | true => exact .inl rfl

theorem recvCommandRead_continuesOrFinishes (c : Bool) (len : Count) (cb : Byte) (s : State) :
    ContinuesOrFinishes s.cfg (recvCommandRead c len cb s) := by
  rcases recvCommandRead_cases c len cb s with ⟨_, h⟩ | ⟨_, _, h⟩ | ⟨_, _, h⟩ <;> rw [h]
  · exact finishRecv_continuesOrFinishes (s := { s with rcmd := cb, pcnt := _ }) ..
  · exact .inl rfl
  · exact recvParamsRead_continuesOrFinishes c [] (startRead 0 { s with rcmd := cb, pcnt := 0, phase := .recvPar })

theorem recvCompare_continuesOrFinishes (k : Byte) (s : State) : ContinuesOrFinishes s.cfg (recvCompare k s) := by
  rcases recvCompare_cases k s with ⟨_, h⟩ | ⟨_, h⟩ <;> rw [h] <;> exact finishRecv_continuesOrFinishes ..

theorem recvByte_continuesOrFinishes {next : Byte → State → State}
    (hn : ∀ b s, ContinuesOrFinishes s.cfg (next b s)) {s : State} (hp : s.phase.isRecv = true) :
    ContinuesOrFinishes s.cfg (recvByte next s) := by
  rcases recvByte_cases next s with ⟨a, b, l, _, _, _, h⟩ | ⟨b, l, _, _, h⟩ | ⟨_, _, h⟩ | ⟨_, _, h⟩ <;> rw [h]
  · exact hn a { s with rxq := l, rdbuf := s.rdbuf ++ [b] }
  · exact .inl hp
  · exact finishRecv_continuesOrFinishes ..
  · exact .inl hp

theorem recvBlock_continuesOrFinishes (c : Bool) {s : State} (hp : s.phase.isRecv = true) :
    ContinuesOrFinishes s.cfg (recvBlock c s) := by
  rcases recvBlock_cases c s with ⟨b, l, _, _, h⟩ | ⟨b, l, _, _, h⟩ | ⟨_, _, h⟩ | ⟨_, _, h⟩ <;> rw [h]
  · exact recvParamsRead_continuesOrFinishes c _ { s with rxq := l, rdbuf := s.rdbuf ++ [b] }
  · exact .inl hp
  · exact finishRecv_continuesOrFinishes ..
  · exact .inl hp

theorem recvIteration_continuesOrFinishes (c : Bool) (len : Count) {s : State} (hp : s.phase.isRecv = true) :
    ContinuesOrFinishes s.cfg (recvIteration c len s) := by
  unfold recvIteration
  split
  · exact recvByte_continuesOrFinishes recvHeaderRead_continuesOrFinishes hp
  · exact recvByte_continuesOrFinishes (recvCommandRead_continuesOrFinishes c len) hp
  · exact recvBlock_continuesOrFinishes c hp
  · exact recvByte_continuesOrFinishes recvCompare_continuesOrFinishes hp
  all_goals exact .inl hp

/-- Settles O36: RESP is no phase of RECV, so a step that reaches it ran `finishRecv`. -/
theorem everyEndOfRecvRestoresTheTimeout : Obligations.EveryEndOfRecvRestoresTheTimeout := by
  refine ⟨?finish, ?reset⟩
  case finish =>
    intro c len timeout s t hp h hresp
    rw [exec_of_isRecv_recv hp] at h
    cases h
    rcases recvIteration_continuesOrFinishes c len hp with hrecv | ⟨st, r, n, pl, u, hcfg, hfin⟩
    · rw [hresp] at hrecv
      cases hrecv
    · rw [hfin, ← hcfg]
      exact ⟨finishRecv_rto .., by simp⟩
  case reset => exact fun s es => ⟨_, step_assertReset s es, rfl⟩

end Sys2Proof.Machine

/-! PROOFS. The family 43_checksum.md: the fold under permutation (R184), and CKSUM's one step (R182, R183). -/

namespace Sys2Proof.Machine

open Sys2Proof.Laws.EncodeFields (opOf)

/-! ### The fold and the order of the bytes (R184) -/

/-- Settles O7: by induction on the permutation, whose swap of two neighbours is where XOR commutes. -/
theorem foldIsOrderIndependent : Obligations.FoldIsOrderIndependent := by
  intro l l' h
  induction h with
  | nil => rfl
  | cons b _ ih => rw [fold_cons, fold_cons, ih]
  | swap a b l =>
    calc fold (b :: a :: l)
      _ = b ^^^ (a ^^^ fold l) := by rw [fold_cons, fold_cons]
      _ = a ^^^ (b ^^^ fold l) := by rw [← BitVec.xor_assoc, BitVec.xor_comm b a, BitVec.xor_assoc]
      _ = fold (a :: b :: l) := by rw [fold_cons, fold_cons]
  | trans _ _ ih ih' => exact ih.trans ih'

/-! ### CKSUM's one step (R182, R183) -/

theorem exec_of_idle_cksum {s : State} (hp : s.phase = .idle) (bytes : List Byte) :
    exec (.cksum bytes) s = .next (respond .ok (fold bytes) (lenOf bytes) [] s) := if_pos hp

theorem opl_op_of_latched {i : Instr} {s : State} (hl : Latched i s) : s.opl.op = opOf i := by
  rw [hl, Opl.ofTransaction, opOf_encode]

/-- What CKSUM leaves (R183): with the command latched and nothing offered to TX, only RSP and PHASE differ. -/
theorem respond_of_latched_cksum {bytes : List Byte} {s : State} (hl : Latched (.cksum bytes) s) (htxb : s.txb = []) :
    respond .ok (fold bytes) (lenOf bytes) [] s =
      { s with rsp := some ⟨responseWord .ok 7 (fold bytes) (lenOf bytes), []⟩, phase := .resp } := by
  rw [respond_of_txb_nil htxb, opl_op_of_latched hl, opOf]

/-- Settles O9: the answer is a response made of the bytes given and of the opcode latched, neither of which is CFG. -/
theorem cksumAnswersTheFoldInOneStep : Obligations.CksumAnswersTheFoldInOneStep := by
  intro bytes s hp hl htxb
  refine ⟨?answer, fun h w => ?window⟩
  case answer => rw [exec_of_idle_cksum hp, respond_of_latched_cksum hl htxb]
  case window =>
    rw [exec_of_idle_cksum hp, exec_of_idle_cksum (s := { s with cfg := { s.cfg with hdr := h, ckWin := w } }) hp]
    rfl

end Sys2Proof.Machine

/-! PROOFS. The family 70_reset_and_hazards.md: what the assertion of rst aborts and what the core does while it is held
(R232), and that CFG is written at the release alone (R231). -/

namespace Sys2Proof.Machine

/-! ### The agents while rst is asserted (R230, R232) -/

section
variable {s : State} (hr : s.rst = true)
include hr

theorem stepCore_of_rst : stepCore s = .next s := if_neg (by simp [hr])

theorem stepTxAccept_of_rst : stepTxAccept s = .next s := if_neg (by simp [hr])

theorem stepOffer_of_rst (x : Transaction) : stepOffer x s = .next s := if_neg (by simp [offerEnabled, hr])

theorem stepHostTake_of_rst : stepHostTake s = s := if_neg (by simp [hr])

theorem stepTick_of_rst : stepTick s = s := if_pos hr

/-- While rst is asserted every agent's step but that of rst itself moves the RX queue and the configuration inputs alone. -/
theorem perform_of_rst {e : Event} {t : State} (hassert : e ≠ .assertReset) (hrelease : e ≠ .releaseReset)
    (h : perform e s = .next t) : ∃ q c, t = { s with rxq := q, cfgIn := c } := by
  cases e with
  | core => cases (stepCore_of_rst hr).symm.trans h; exact ⟨s.rxq, s.cfgIn, rfl⟩
  | offer x => cases (stepOffer_of_rst hr x).symm.trans h; exact ⟨s.rxq, s.cfgIn, rfl⟩
  | txAccept => cases (stepTxAccept_of_rst hr).symm.trans h; exact ⟨s.rxq, s.cfgIn, rfl⟩
  | hostTake => cases h; exact ⟨s.rxq, s.cfgIn, stepHostTake_of_rst hr⟩
  | tick => cases h; exact ⟨s.rxq, s.cfgIn, stepTick_of_rst hr⟩
  | setInputs c => cases h; exact ⟨s.rxq, c, rfl⟩
  | rxArrive b lose =>
    cases h
    by_cases hdrop : lose = true ∧ s.rxcap = some s.rxq.length
    · exact ⟨s.rxq, s.cfgIn, stepRxArrive_drops hdrop⟩
    · exact ⟨s.rxq ++ [b], s.cfgIn, stepRxArrive_appends hdrop⟩
  | assertReset => exact absurd rfl hassert
  | releaseReset => exact absurd rfl hrelease

end

/-- Settles O48: the assertion resets the core outright, and the agents it leaves enabled reach the environment alone. -/
theorem assertedResetAbortsAndHoldsTheCore : Obligations.AssertedResetAbortsAndHoldsTheCore := by
  refine ⟨?aborts, ?holds, ?arrival⟩
  case aborts => exact fun s es => ⟨_, step_assertReset s es, by simp⟩
  case holds =>
    intro s t hr hassert hrelease h
    obtain ⟨q, c, rfl⟩ := perform_of_rst (s := { s with sched := (nextEvent s).2 }) hr hassert hrelease h
    exact ⟨rfl, hr, rfl⟩
  case arrival =>
    intro s b es _
    have happend := (arrivalAppendsOrAFullQueueDrops s b false es).1 (.inl rfl)
    exact ⟨_, happend, rfl⟩

/-! ### What writes CFG and the configure output (R231, R234) -/

/-- `t` has the configuration of `s`, and has presented no other. -/
structure KeepsConfig (s t : State) : Prop where
  cfg : t.cfg = s.cfg
  configOut : t.configOut = s.configOut

theorem KeepsConfig.refl (s : State) : KeepsConfig s s := ⟨rfl, rfl⟩

theorem KeepsOuter.keepsConfig {s t : State} (h : KeepsOuter s t) : KeepsConfig s t := ⟨h.cfg, h.configOut⟩

theorem stepHostTake_keepsConfig (s : State) : KeepsConfig s (stepHostTake s) := by
  unfold stepHostTake takeResponse
  split
  · split <;> exact ⟨rfl, rfl⟩
  · exact ⟨rfl, rfl⟩

theorem stepRxArrive_keepsConfig (b : Byte) (lose : Bool) (s : State) : KeepsConfig s (stepRxArrive b lose s) := by
  unfold stepRxArrive
  split <;> exact ⟨rfl, rfl⟩

theorem stepTick_keepsConfig (s : State) : KeepsConfig s (stepTick s) := by
  unfold stepTick
  split <;> exact ⟨rfl, rfl⟩

theorem stepCore_keepsConfig {s t : State} (h : stepCore s = .next t) : KeepsConfig s t := by
  rcases stepCore_next h with ⟨rfl, _⟩ | ⟨i, _, _, _, hexec⟩
  · exact .refl _
  · exact (exec_keeps hexec).keepsConfig

theorem stepTxAccept_keepsConfig {s t : State} (h : stepTxAccept s = .next t) : KeepsConfig s t := by
  rcases stepTxAccept_next h with ⟨rfl, _⟩ | ⟨i, _, _, _, _, hexec⟩
  · exact .refl _
  · exact (exec_keeps hexec).keepsConfig

theorem stepOffer_keepsConfig {x : Transaction} {s t : State} (h : stepOffer x s = .next t) : KeepsConfig s t := by
  rcases stepOffer_next h with ⟨rfl, _⟩ | ⟨_, _, _, ⟨_, _, rfl⟩ | ⟨i, _, hexec⟩⟩
  · exact .refl _
  · exact ⟨rfl, rfl⟩
  · have hkeep := (exec_keeps hexec).keepsConfig
    exact ⟨hkeep.cfg, hkeep.configOut⟩

/-- Every agent's step but an enabled release of rst leaves CFG and the configure output. -/
theorem perform_keepsConfig {e : Event} {s t : State} (h : perform e s = .next t)
    (hno : e ≠ .releaseReset ∨ s.rst = false) : KeepsConfig s t := by
  cases e with
  | core => exact stepCore_keepsConfig h
  | offer x => exact stepOffer_keepsConfig h
  | txAccept => exact stepTxAccept_keepsConfig h
  | hostTake => cases h; exact stepHostTake_keepsConfig s
  | rxArrive b lose => cases h; exact stepRxArrive_keepsConfig b lose s
  | tick => cases h; exact stepTick_keepsConfig s
  | setInputs c => cases h; exact ⟨rfl, rfl⟩
  | assertReset => cases h; exact ⟨rfl, rfl⟩
  | releaseReset =>
    have hr : s.rst = false := hno.resolve_left (absurd rfl)
    cases h
    rw [if_neg (by simp [hr])]
    exact .refl s

/-- Settles O49: commands leave CFG, and of the environment's steps only the release of an asserted rst writes it. -/
theorem onlyTheReleaseOfResetWritesTheConfiguration : Obligations.OnlyTheReleaseOfResetWritesTheConfiguration := by
  refine ⟨fun s es hr => ⟨_, step_releaseReset hr es, by simp⟩, fun s t h hno => ?_⟩
  exact (perform_keepsConfig (s := { s with sched := (nextEvent s).2 }) h hno).cfg

end Sys2Proof.Machine

/-! PROOFS. The encoding, both ways: a command's spelling decodes to it, and a transaction that decodes is the
spelling of what it decodes to (R94, R98, R102, R106). -/

namespace Sys2Proof

/-- Settles O1: the row of the command selects its spelling, and the fields the row reads are the operands. -/
theorem decodeOfEncodeIsTheCommand : Obligations.DecodeOfEncodeIsTheCommand := fun _ _ h => decode_encode h

/-- Settles O4: the ten rows, evaluated. -/
theorem encodingExamplesOfTheSpec : Obligations.EncodingExamplesOfTheSpec := by
  unfold Obligations.EncodingExamplesOfTheSpec
  decide

/-! ### What a legal transaction satisfies (R98) -/

/-- A transaction decodes through the one row that selects it, past every check. -/
theorem exists_row_of_decode_ok {mode : LenMode} {t : Transaction} {i : Instr} (h : decode mode t = .ok i) :
    ∃ r ∈ opTable, r.selects t.desc = true ∧ ¬RowRefuses mode t r ∧ buildInstr r.op t = .ok i := by
  cases hrow : selectRow t.desc with
  | none =>
    obtain ⟨e, he⟩ := decode_error_of_selectRow_none (mode := mode) hrow
    rw [h] at he
    cases he
  | some r =>
    have hr : r ∈ opTable := List.mem_of_find?_eq_some hrow
    have hsel : r.selects t.desc = true := List.find?_some (p := fun r => OpRow.selects r t.desc) hrow
    have hok : ¬RowRefuses mode t r := by
      intro hrefuses
      obtain ⟨e, he⟩ := (decode_error_iff_of_selects hr hsel).mpr hrefuses
      rw [h] at he
      cases he
    exact ⟨r, hr, hsel, hok, (decode_eq_buildInstr hr hsel hok).symm.trans h⟩

/-- A descriptor whose reserved bits are 0 is built from its own fields. -/
theorem mkDesc_of_fields {d : Word} {op : BitVec 4} {c t : Bool} {cmd : Byte} {len : Count} (hres : descRes d = 0)
    (hop : descOp d = op) (hc : descC d = c) (ht : descT d = t) (hcmd : descCmd d = cmd) (hlen : descLen d = len) :
    mkDesc op c t cmd len = d := by
  apply word_eq_of_fields
  · rw [descOp_mkDesc, hop]
  · rw [descRes_mkDesc, hres]
  · rw [descC_mkDesc, hc]
  · rw [descT_mkDesc, ht]
  · rw [descCmd_mkDesc, hcmd]
  · rw [descLen_mkDesc, hlen]

theorem payloadFits_of_length_eq {l : List Byte} {len : Count} (h : l.length = len.toNat) : payloadFits l = true := by
  have hlen := len.isLt
  exact decide_eq_true (by omega)

theorem lenOf_of_length_eq {l : List Byte} {len : Count} (h : l.length = len.toNat) : lenOf l = len :=
  BitVec.eq_of_toNat_eq ((lenOf_toNat (payloadFits_of_length_eq h)).trans h)

/-- The payload column of R94. -/
theorem payload_of_mem : ∀ r ∈ opTable,
    r.payload = if r.op = .send ∨ r.op = .rawdat ∨ r.op = .cksum then .lenBytes else .empty := by decide

/-- Past the checks, the fields the row fixes are those `encode` writes, and the others are the operands. -/
theorem encode_of_row {mode : LenMode} {t : Transaction} {i : Instr} {r : OpRow} (hr : r ∈ opTable)
    (hsel : r.selects t.desc = true) (hok : ¬RowRefuses mode t r) (hi : buildInstr r.op t = .ok i) :
    encode i = t ∧ i.wf mode = true ∧ t.wf = true := by
  obtain ⟨d, tmo, payload⟩ := t
  obtain ⟨hop, hres, hc, ht, hcmd, hlen⟩ := (selects_iff_of_mem hr d).mp hsel
  obtain ⟨htmo, hpayload, hmode⟩ : tmo.isSome = descT d ∧ payloadOk r ⟨d, tmo, payload⟩ = true ∧
      ¬(r.op = .recv ∧ mode = .negotiated ∧ descLen d ≠ 0) := by
    simpa only [RowRefuses, not_or, not_not, Bool.not_eq_false] using hok
  rw [payloadOk, payload_of_mem r hr] at hpayload
  cases hrow : r.op <;> rw [hrow] at hi hop <;> simp only [hrow] at hc ht hcmd hlen hpayload hmode
  case send | rawdat | cksum =>
    -- no timeout word, and LEN counts the payload
    have hlength : payload.length = (descLen d).toNat := by simpa using hpayload
    obtain rfl : tmo = none := by simpa [ht] using htmo
    cases hi
    refine ⟨?_, payloadFits_of_length_eq hlength, payloadFits_of_length_eq hlength⟩
    rw [encode, lenOf_of_length_eq hlength,
      mkDesc_of_fields hres hop (by simp [hc]) (by simp [ht]) (by simp [hcmd]) rfl]
  case rawhc | rawck =>
    -- no timeout word and no payload
    obtain rfl : payload = [] := by simpa using hpayload
    obtain rfl : tmo = none := by simpa [ht] using htmo
    cases hi
    refine ⟨?_, rfl, rfl⟩
    rw [encode, mkDesc_of_fields hres hop (by simp [hc]) (by simp [ht]) (by simp [hcmd]) (by simp [hlen])]
  case sync =>
    -- T = 1, so there is a timeout word
    obtain rfl : payload = [] := by simpa using hpayload
    have hsome : tmo.isSome = true := by simp [htmo, ht]
    obtain ⟨timeout, rfl⟩ := Option.isSome_iff_exists.mp hsome
    cases hi
    refine ⟨?_, rfl, rfl⟩
    rw [encode, mkDesc_of_fields hres hop (by simp [hc]) (by simp [ht]) (by simp [hcmd]) (by simp [hlen])]
  case recv =>
    -- T says whether there is a timeout word, and LEN is an operand, which the mode may restrict
    obtain rfl : payload = [] := by simpa using hpayload
    cases hi
    refine ⟨?_, ?_, rfl⟩
    · rw [encode, mkDesc_of_fields hres hop rfl htmo.symm (by simp [hcmd]) rfl]
    · have hlegal : mode = .negotiated → descLen d = 0 := by simpa using hmode
      cases mode with
      | declared => rfl
      | negotiated => exact decide_eq_true (.inr (hlegal rfl))

/-- Settles O2: the row that selects the transaction fixes every field that is no operand. -/
theorem legalTransactionIsTheSpellingOfItsCommand : Obligations.LegalTransactionIsTheSpellingOfItsCommand := by
  intro mode t i h
  obtain ⟨r, hr, hsel, hok, hi⟩ := exists_row_of_decode_ok h
  exact encode_of_row hr hsel hok hi

theorem encode_of_decode {mode : LenMode} {t : Transaction} {i : Instr} (h : decode mode t = .ok i) : encode i = t :=
  (legalTransactionIsTheSpellingOfItsCommand mode t i h).1

end Sys2Proof

/-! PROOFS. The laws of the fold (R185), what a checksummed frame folds to (R186), and the frame that a raw sequence
writes (R127). -/

namespace Sys2Proof.Machine

/-! ### The laws of the fold (R185) -/

theorem fold_append (a l : List Byte) : fold (a ++ l) = fold a ^^^ fold l := by
  induction a with
  | nil => simp
  | cons b a ih => rw [List.cons_append, fold_cons, fold_cons, ih, BitVec.xor_assoc]

/-- A list with its own fold behind it folds to 0. -/
theorem fold_append_own_fold (l : List Byte) : fold (l ++ [fold l]) = 0 := by simp [fold_append]

/-- The fold tells apart two lists that differ in one position. -/
theorem fold_ne_of_one_changed (a l : List Byte) {x y : Byte} (h : x ≠ y) :
    fold (a ++ x :: l) ≠ fold (a ++ y :: l) := by
  simpa [fold_append] using h

/-- Bit `i` of a fold is the parity of the bytes that have bit `i`. -/
theorem fold_getLsbD (l : List Byte) (i : Nat) :
    (fold l).getLsbD i = decide ((l.filter (fun b => b.getLsbD i)).length % 2 = 1) := by
  induction l with
  | nil => simp
  | cons b l ih =>
    rw [fold_cons, BitVec.getLsbD_xor, ih, List.filter_cons]
    cases b.getLsbD i with
    | false => simp
    | true =>
      rw [if_pos rfl, List.length_cons, Bool.true_xor, ← decide_not, decide_eq_decide]
      omega

/-! ### What a frame folds to (R186) -/

theorem frameBytes_true (cfg : Cfg) (cmd : Byte) (p : List Byte) :
    frameBytes cfg true cmd p = [cfg.hdr, cmd] ++ p ++ [frameChecksum cfg cmd p] := rfl

theorem frameBytes_false (cfg : Cfg) (cmd : Byte) (p : List Byte) :
    frameBytes cfg false cmd p = [cfg.hdr, cmd] ++ p := List.append_nil _

theorem frameBytes_included {cfg : Cfg} (h : cfg.ckWin = .hdrIncluded) (cmd : Byte) (p : List Byte) :
    frameBytes cfg true cmd p = window cfg cmd p ++ [fold (window cfg cmd p)] := by
  rw [frameBytes_true, frameChecksum, window_included h]
  rfl

theorem frameBytes_excluded {cfg : Cfg} (h : cfg.ckWin = .hdrExcluded) (cmd : Byte) (p : List Byte) :
    frameBytes cfg true cmd p = cfg.hdr :: (window cfg cmd p ++ [fold (window cfg cmd p)]) := by
  rw [frameBytes_true, frameChecksum, window_excluded h]
  rfl

/-- Settles O8: the append law is an induction; the others rest on it and on bytes cancelling in pairs. -/
theorem foldLaws : Obligations.FoldLaws := by
  refine ⟨fold_append, fun x => ?pair, fold_append_own_fold, fun a l x y => fold_ne_of_one_changed a l, fold_getLsbD,
    fun cfg cmd p => ⟨fun h => ?included, fun h => ?excluded⟩⟩
  case pair => simp
  case included => rw [frameBytes_included h, fold_append_own_fold]
  case excluded => simp [frameBytes_excluded h, fold_append_own_fold]

/-! ### The raw sequence (R127) -/

theorem window_eq_append (cfg : Cfg) (cmd : Byte) (p : List Byte) : window cfg cmd p = window cfg cmd [] ++ p := by
  simp [window]

/-- RAWHC's accumulator and RAWDAT's data make the checksum of the frame. -/
theorem frameChecksum_nil_xor_fold (cfg : Cfg) (cmd : Byte) (p : List Byte) :
    frameChecksum cfg cmd [] ^^^ fold p = fold (window cfg cmd p) := by
  rw [window_eq_append cfg cmd p, fold_append, frameChecksum]

theorem steps_then_hostTake {n : Nat} {s t : State} {es : List Event}
    (h : steps n s = .next (t.scheduled (.hostTake :: es))) (hr : t.rst = false) (hp : t.phase = .resp) :
    steps (n + 1) s = .next ((takeResponse t).scheduled es) := by
  rw [steps_add h, steps_succ (step_hostTake hr hp es), steps_zero]

/-- What RAWHC leaves once the Host has taken its response, but for the schedule. -/
def rawhcTaken (cmd : Byte) (s : State) : State :=
  takeResponse { s with
    opl := Opl.ofTransaction (encode (.rawhc cmd))
    txlog := s.txlog ++ [[s.cfg.hdr, cmd]], txb := [], txacc := frameChecksum s.cfg cmd []
    rsp := some ⟨0x02000002, []⟩, phase := .resp }

theorem steps_rawhc_taken (cmd : Byte) {s : State} (hr : s.rst = false) (hp : s.phase = .idle) (es : List Event) :
    steps 3 (s.scheduled (.offer (encode (.rawhc cmd)) :: .txAccept :: .hostTake :: es)) =
      .next ((rawhcTaken cmd s).scheduled es) :=
  steps_then_hostTake (n := 2) (t := { s with
    opl := _, txlog := _, txb := _, txacc := _, rsp := _, phase := .resp }) (steps_rawhc cmd hr hp _) hr rfl

theorem steps_rawdat_taken {d : List Byte} {s : State} (hr : s.rst = false) (hp : s.phase = .idle) (hd : d ≠ [])
    (hlen : d.length ≤ 65535) (es : List Event) :
    steps 3 (s.scheduled (.offer (encode (.rawdat d)) :: .txAccept :: .hostTake :: es)) =
      .next ((takeResponse (afterRawdat d s)).scheduled es) :=
  steps_then_hostTake (n := 2) (t := afterRawdat d s) (steps_rawdat hr hp hd hlen _) hr rfl

/-- Settles O22: RAWDAT folds its data into what RAWHC left in TXACC, and RAWCK emits it. -/
theorem rawSequenceWritesTheChecksummedFrame : Obligations.RawSequenceWritesTheChecksummedFrame := by
  intro cmd p s es hr hp hlen
  refine ⟨fun hne => ?withData, ?withoutData⟩
  case withData =>
    have hrawhc := steps_rawhc_taken cmd hr hp
      (.offer (encode (.rawdat p)) :: .txAccept :: .hostTake :: .offer (encode .rawck) :: .txAccept :: es)
    have hrawdat := steps_rawdat_taken (s := rawhcTaken cmd s) hr rfl hne hlen
      (.offer (encode .rawck) :: .txAccept :: es)
    have hrawck := steps_rawck (s := takeResponse (afterRawdat p (rawhcTaken cmd s))) hr rfl es
    have hacc : (takeResponse (afterRawdat p (rawhcTaken cmd s))).txacc = fold (window s.cfg cmd p) :=
      frameChecksum_nil_xor_fold s.cfg cmd p
    refine ⟨_, (steps_add hrawhc).trans ((steps_add hrawdat).trans hrawck), ?_, rfl, hacc, rfl⟩
    rw [hacc]
    simp [rawhcTaken, afterRawdat, takeResponse]
  case withoutData =>
    have hrawhc := steps_rawhc_taken cmd hr hp (.offer (encode .rawck) :: .txAccept :: es)
    have hrawck := steps_rawck (s := rawhcTaken cmd s) hr rfl es
    refine ⟨_, (steps_add hrawhc).trans hrawck, ?_, rfl, rfl, rfl⟩
    simp [rawhcTaken, takeResponse, frameChecksum]

end Sys2Proof.Machine

/-! PROOFS. In which phases a command has a meaning, what it runs there, and that no step stops (R33, R35, R61, R200,
R203). -/

namespace Sys2Proof.Machine

/-! ### A meaning and its phases (R33) -/

/-- The shape of every meaning with phases of its own: it answers in IDLE and in them, and stops elsewhere. -/
theorem twoPhase_outcome {p q : Prop} [Decidable p] [Decidable q] {own : Bool} (hown : own = true ↔ p ∨ q) (a b : State)
    (f : Fault) :
    (own = true → ∃ t, (if p then .next a else if q then .next b else .fault f : Result) = .next t) ∧
    (own = false → (if p then .next a else if q then .next b else .fault f : Result) = .fault f) := by
  by_cases hp : p
  · simp [hp, hown]
  · by_cases hq : q
    · simp [hp, hq, hown]
    · simp [hp, hq, hown, ← Bool.not_eq_true]

theorem onePhase_outcome {p : Prop} [Decidable p] {own : Bool} (hown : own = true ↔ p) (a : State) (f : Fault) :
    (own = true → ∃ t, (if p then .next a else .fault f : Result) = .next t) ∧
    (own = false → (if p then .next a else .fault f : Result) = .fault f) := by
  by_cases hp : p <;> simp [hp, hown, ← Bool.not_eq_true]

/-- Settles O44: each meaning tests for IDLE and for its own phases, and stops when both tests fail. -/
theorem meaningsStopOnlyOutsideTheirPhases : Obligations.MeaningsStopOnlyOutsideTheirPhases := by
  intro i s
  cases i with
  | send | rawhc | rawdat | rawck | sync | recv => exact twoPhase_outcome (by simp [ownPhase]) _ _ _
  | cksum => exact onePhase_outcome (by simp [ownPhase]) _ _

theorem exec_next_of_ownPhase {i : Instr} {s : State} (h : ownPhase i s.phase = true) : ∃ t, exec i s = .next t :=
  (meaningsStopOnlyOutsideTheirPhases i s).1 h

/-! ### The command in progress (R34) -/

/-- The command in progress is asked to run only in a phase of its own. -/
theorem ownPhase_of_current {i : Instr} {s : State} (h : s.current = some i) : ownPhase i s.phase = true := by
  cases hp : s.phase <;> simp only [State.current, hp] at h
  case idle | resp => cases h
  case syncScan =>
    obtain ⟨timeout, _, rfl⟩ := Option.map_eq_some_iff.mp h
    rfl
  all_goals cases h; rfl

/-- A latched command is read back from OPL in the phases of its own (R85). -/
theorem current_of_latched {i : Instr} {s : State} (hl : Latched i s) (hidle : s.phase ≠ .idle)
    (hown : ownPhase i s.phase = true) : s.current = some i := by
  cases i with
  | send c cmd p => exact current_sendWr (by simpa [ownPhase, hidle] using hown) hl
  | rawhc cmd => exact current_rawhcWr (by simpa [ownPhase, hidle] using hown) hl
  | rawdat d => exact current_rawdatWr (by simpa [ownPhase, hidle] using hown) hl
  | rawck =>
    have hp : s.phase = .rawckWr := by simpa [ownPhase, hidle] using hown
    simp [State.current, hp]
  | sync timeout =>
    have hp : s.phase = .syncScan := by simpa [ownPhase, hidle] using hown
    simp [State.current, hp, hl, Opl.ofTransaction, encode]
  | recv c len timeout =>
    have hp : s.phase.isRecv = true := by simpa [ownPhase, hidle] using hown
    cases hphase : s.phase <;> simp [Phase.isRecv, hphase] at hp
    all_goals simp [State.current, hphase, hl, Opl.ofTransaction, encode, descC_mkDesc, descLen_mkDesc]
  | cksum l => exact absurd (by simpa [ownPhase] using hown) hidle

/-! ### No step stops (R200, R211) -/

theorem stepCore_exists_next (s : State) : ∃ t, stepCore s = .next t := by
  unfold stepCore
  split
  · cases hc : s.current with
    | none => exact ⟨s, rfl⟩
    | some i => exact exec_next_of_ownPhase (ownPhase_of_current hc)
  · exact ⟨s, rfl⟩

theorem stepTxAccept_exists_next (s : State) : ∃ t, stepTxAccept s = .next t := by
  unfold stepTxAccept
  split
  · cases hc : s.current with
    | none => exact ⟨s, rfl⟩
    | some i => exact exec_next_of_ownPhase (ownPhase_of_current hc)
  · exact ⟨s, rfl⟩

theorem stepOffer_exists_next (x : Transaction) (s : State) : ∃ t, stepOffer x s = .next t := by
  unfold stepOffer
  split
  · next henabled =>
    obtain ⟨_, hp, _⟩ := (offerEnabled_iff x s).mp henabled
    obtain ⟨t, ht, _⟩ := acceptCommand_latches x hp
    exact ⟨t, ht⟩
  · exact ⟨s, rfl⟩

theorem perform_exists_next (e : Event) (s : State) : ∃ t, perform e s = .next t := by
  cases e with
  | core => exact stepCore_exists_next s
  | offer x => exact stepOffer_exists_next x s
  | txAccept => exact stepTxAccept_exists_next s
  | hostTake | rxArrive | tick | setInputs | assertReset | releaseReset => exact ⟨_, rfl⟩

/-- Settles O43: a step runs a command only in IDLE or as the one in progress, and there it has a meaning. -/
theorem noStepStopsTheMachine : Obligations.NoStepStopsTheMachine := fun s =>
  perform_exists_next _ { s with sched := _ }

/-! ### Agents whose step is not enabled -/

theorem stepCore_of_not_rxWait {s : State} (h : s.phase.isRxWait = false) : stepCore s = .next s :=
  if_neg (by simp [h])

theorem stepOffer_of_not_idle {s : State} (h : s.phase ≠ .idle) (x : Transaction) : stepOffer x s = .next s :=
  if_neg (by simp [offerEnabled, h])

theorem stepTxAccept_of_not_write {s : State} (h : s.phase.isWrite = false) : stepTxAccept s = .next s :=
  if_neg (by simp [h])

theorem stepHostTake_of_not_resp {s : State} (h : s.phase ≠ .resp) : stepHostTake s = s := if_neg (by simp [h])

/-- Settles O41: the acceptance step is latch, decode and run, and only IDLE has one. -/
theorem stepRunsTheOfferedCommand : Obligations.StepRunsTheOfferedCommand := by
  refine ⟨?legal, ?illegal, ?dropped⟩
  case legal =>
    exact fun s t es i hr hp hw hi => (step_offer hr hp hw es).trans (acceptCommand_ok (s := s.scheduled es) hi)
  case illegal =>
    exact fun s t es e hr hp hw he => (step_offer hr hp hw es).trans (acceptCommand_error (s := s.scheduled es) he)
  case dropped => exact fun s t es hp => stepOffer_of_not_idle (s := s.scheduled es) hp t

/-- Settles O42: the core's step and the TX accept run the command that OPL and the phase give. -/
theorem stepContinuesTheLatchedCommand : Obligations.StepContinuesTheLatchedCommand := by
  refine ⟨?core, ?txAccept, ?dropped, ?latched⟩
  case core =>
    exact fun s es i hr hc hp =>
      ⟨stepCore_current (s := s.scheduled es) hr hp hc, stepCore_current (s := s.scheduled []) hr hp hc⟩
  case txAccept => exact fun s es i hr hc hp ht => stepTxAccept_current (s := s.scheduled es) hr hp ht hc
  case dropped => exact fun s es hp => stepCore_of_not_rxWait (s := s.scheduled es) hp
  case latched => exact fun s _ i _ hl hidle _ hown => current_of_latched hl hidle hown

/-! ### What a command runs in its own phases -/

theorem exec_of_sendWr {s : State} (hp : s.phase = .sendWr) (c : Bool) (cmd : Byte) (p : List Byte) :
    exec (.send c cmd p) s = .next (sendAccepted c cmd p s) := by
  have hidle : s.phase ≠ .idle := by simp [hp]
  exact (if_neg hidle).trans (if_pos hp)

theorem exec_of_rawhcWr {s : State} (hp : s.phase = .rawhcWr) (cmd : Byte) :
    exec (.rawhc cmd) s = .next (rawhcAccepted cmd s) := by
  have hidle : s.phase ≠ .idle := by simp [hp]
  exact (if_neg hidle).trans (if_pos hp)

theorem exec_of_rawdatWr {s : State} (hp : s.phase = .rawdatWr) (d : List Byte) :
    exec (.rawdat d) s = .next (rawdatAccepted d s) := by
  have hidle : s.phase ≠ .idle := by simp [hp]
  exact (if_neg hidle).trans (if_pos hp)

theorem exec_of_rawckWr {s : State} (hp : s.phase = .rawckWr) : exec .rawck s = .next (rawckAccepted s) := by
  have hidle : s.phase ≠ .idle := by simp [hp]
  exact (if_neg hidle).trans (if_pos hp)

/-- Settles O12: the frame's checksum and length are computed again from the latched operands. -/
theorem sendCompletesOnTxAccept : Obligations.SendCompletesOnTxAccept := by
  intro c cmd p s hp hl
  rw [exec_of_sendWr hp, sendAccepted_eq hl]

/-- Settles O15: TXACC starts from a frame with no parameters. -/
theorem rawhcCompletesOnTxAccept : Obligations.RawhcCompletesOnTxAccept := by
  intro cmd s hp hl
  rw [exec_of_rawhcWr hp, rawhcAccepted_eq hl, frameChecksum]

/-- Settles O18: the data is folded into TXACC. -/
theorem rawdatCompletesOnTxAccept : Obligations.RawdatCompletesOnTxAccept := by
  intro d s hp hl
  rw [exec_of_rawdatWr hp, rawdatAccepted_eq hl]

/-- Settles O20: RESULT is TXACC, which stays. -/
theorem rawckCompletesOnTxAccept : Obligations.RawckCompletesOnTxAccept := by
  intro s hp hl
  rw [exec_of_rawckWr hp, rawckAccepted_eq hl]

theorem exec_of_idle_recv {s : State} (hp : s.phase = .idle) (c : Bool) (len : Count) (timeout : Option Word) :
    exec (.recv c len timeout) s = .next (recvStart timeout s) := if_pos hp

/-- Settles O31: RTO is written only where there is an explicit timeout. -/
theorem recvStartsTheHeaderRead : Obligations.RecvStartsTheHeaderRead := by
  intro c len timeout s hp
  rw [exec_of_idle_recv hp]
  cases timeout <;> rfl

end Sys2Proof.Machine

/-! PROOFS. What the commands leave unchanged (R126, R168), and the rules over every step of every agent: TXACC (R31),
RTO (R30), txlog (R61), the held response (R206), errors (R208), the configure output (R234), and the write that waits
(R60). -/

namespace Sys2Proof.Machine

/-! ### The responses a command gives (R204, R205) -/

/-- A response as `respond` makes it for the opcode `op`: an error carries no data. -/
def IsAnswer (op : BitVec 4) (r : Response) : Prop :=
  ∃ st b n pl, r = ⟨responseWord st op b n, pl⟩ ∧ (st = .ok ∨ (b = 0 ∧ n = 0 ∧ pl = []))

/-- `t` holds the response of `s`, or one that answers the operation latched in `s`. -/
def Answers (s t : State) : Prop := t.rsp = s.rsp ∨ ∃ r, t.rsp = some r ∧ IsAnswer s.opl.op r

theorem isAnswer_ok (op : BitVec 4) (b : Byte) (n : Count) (pl : List Byte) :
    IsAnswer op ⟨responseWord .ok op b n, pl⟩ := ⟨_, _, _, _, rfl, .inl rfl⟩

theorem isAnswer_error (st : Status) (op : BitVec 4) : IsAnswer op ⟨responseWord st op 0 0, []⟩ :=
  ⟨_, _, _, _, rfl, .inr ⟨rfl, rfl, rfl⟩⟩

theorem IsAnswer.noData_of_error {op : BitVec 4} {r : Response} (h : IsAnswer op r)
    (herr : Status.ofCode r.statusField ≠ some .ok) : r.payload = [] ∧ r.resultField = 0 ∧ r.countField = 0 := by
  obtain ⟨st, b, n, pl, rfl, rfl | ⟨rfl, rfl, rfl⟩⟩ := h
  · simp at herr
  · obtain ⟨_, _, hresult, hcount⟩ := responseWord_fields st op 0 0 []
    exact ⟨rfl, hresult, hcount⟩

/-! ### The Framer operations (R126) -/

/-- What a Framer operation can come to: its acceptance offers a write or answers; its TX accept logs the write and
answers. -/
inductive FramerOutcome (i : Instr) (s t : State) : Prop
  | starts (p : Phase) (l : List Byte) (r : Option Response) (hp : s.phase = .idle)
      (hrecv : p.isRecv = false) (ht : t = { s with phase := p, txb := l, rsp := r }) (hr : Answers s t)
  | accepted (a b : Byte) (n : Count) (hp : s.phase.isWrite = true)
      (ha : a = s.txacc ∨ (s.phase = .rawhcWr ∧ ∃ cmd, i = .rawhc cmd) ∨ (s.phase = .rawdatWr ∧ ∃ d, i = .rawdat d))
      (ht : t = respond .ok b n [] { acceptWrite s with txacc := a })

theorem sendStart_outcome (i : Instr) (c : Bool) (cmd : Byte) (p : List Byte) {s : State} (hp : s.phase = .idle) :
    FramerOutcome i s (sendStart c cmd p s) := by
  rcases sendStart_cases c cmd p s with ⟨_, _, h⟩ | ⟨_, _, h⟩ | ⟨_, _, h⟩ <;> rw [h]
  · exact .starts _ _ _ hp rfl rfl (.inr ⟨_, rfl, isAnswer_error ..⟩)
  · exact .starts _ _ _ hp rfl rfl (.inr ⟨_, rfl, isAnswer_error ..⟩)
  · exact .starts _ _ _ hp rfl rfl (.inl rfl)

theorem rawdatStart_outcome (i : Instr) (d : List Byte) {s : State} (hp : s.phase = .idle) :
    FramerOutcome i s (rawdatStart d s) := by
  rcases eq_or_ne d [] with rfl | hd
  · exact .starts _ _ _ hp rfl rfl (.inr ⟨_, rfl, isAnswer_ok ..⟩)
  · rw [rawdatStart_of_ne_nil hd]
    exact .starts _ _ _ hp rfl rfl (.inl rfl)

theorem exec_framerOutcome {i : Instr} {s t : State} (hi : isFramer i = true) (h : exec i s = .next t) :
    FramerOutcome i s t := by
  cases i with
  | send c cmd p =>
    rcases execSend_next h with ⟨hp, rfl⟩ | ⟨hp, rfl⟩
    · exact sendStart_outcome _ c cmd p hp
    · exact .accepted s.txacc _ _ (by rw [hp]; rfl) (.inl rfl) rfl
  | rawhc cmd =>
    rcases execRawhc_next h with ⟨hp, rfl⟩ | ⟨hp, rfl⟩
    · exact .starts _ _ _ hp rfl rfl (.inl rfl)
    · exact .accepted _ _ _ (by rw [hp]; rfl) (.inr (.inl ⟨hp, cmd, rfl⟩)) rfl
  | rawdat d =>
    rcases execRawdat_next h with ⟨hp, rfl⟩ | ⟨hp, rfl⟩
    · exact rawdatStart_outcome _ d hp
    · exact .accepted _ _ _ (by rw [hp]; rfl) (.inr (.inr ⟨hp, d, rfl⟩)) rfl
  | rawck =>
    rcases execRawck_next h with ⟨hp, rfl⟩ | ⟨hp, rfl⟩
    · exact .starts _ _ _ hp rfl rfl (.inl rfl)
    · exact .accepted s.txacc _ _ (by rw [hp]; rfl) (.inl rfl) rfl
  | sync | recv | cksum => cases hi

/-- Settles O24: the acceptance step writes PHASE, TXB and RSP, and the TX accept txlog and, in two operations, TXACC.
-/
theorem framerOperationsFrame : Obligations.FramerOperationsFrame := by
  intro i s t hi h
  cases exec_framerOutcome hi h with
  | starts p l r hp _ ht =>
    subst ht
    exact ⟨rfl, .inl rfl, fun _ _ => rfl, fun _ => ⟨rfl, rfl⟩⟩
  | accepted a b n hp ha ht =>
    subst ht
    refine ⟨rfl, .inr ⟨hp, rfl⟩, fun hhc hdat => ?accumulator, fun hidle => ?acceptance⟩
    case accumulator =>
      rcases ha with ha | ⟨_, cmd, rfl⟩ | ⟨_, d, rfl⟩
      · exact ha
      · exact absurd rfl (hhc cmd)
      · exact absurd rfl (hdat d)
    case acceptance => simp [hidle, Phase.isWrite] at hp

/-! ### RECV (R160, R168) -/

/-- Values for the registers of RECV and for the queue it reads. -/
structure RecvRegs where
  phase : Phase
  elapsed : Ticks
  rcmd : Byte
  pcnt : Count
  pbuf : List Byte
  rdn : Count
  rdbuf : List Byte
  rxq : List Byte

/-- The state with those values. -/
def RecvRegs.write (v : RecvRegs) (s : State) : State :=
  { s with
    phase := v.phase, elapsed := v.elapsed, rcmd := v.rcmd, pcnt := v.pcnt, pbuf := v.pbuf, rdn := v.rdn
    rdbuf := v.rdbuf, rxq := v.rxq }

/-- What a step of RECV can come to: it writes its registers, and may end with `finishRecv`, an error without data. -/
inductive RecvOutcome (s t : State) : Prop
  | continues (v : RecvRegs) (ht : t = v.write s)
  | finishes (v : RecvRegs) (st : Status) (b : Byte) (n : Count) (pl : List Byte)
      (hdata : st = .ok ∨ (b = 0 ∧ n = 0 ∧ pl = [])) (ht : t = finishRecv st b n pl (v.write s))

theorem RecvOutcome.refl (s : State) : RecvOutcome s s :=
  .continues ⟨s.phase, s.elapsed, s.rcmd, s.pcnt, s.pbuf, s.rdn, s.rdbuf, s.rxq⟩ rfl

/-- What RECV writes before does not show in what it can come to. -/
theorem RecvOutcome.of_write {v : RecvRegs} {s t : State} (h : RecvOutcome (v.write s) t) : RecvOutcome s t := by
  cases h with
  | continues v' ht => exact .continues v' ht
  | finishes v' st b n pl hdata ht => exact .finishes v' st b n pl hdata ht

theorem finishRecv_outcome_error (st : Status) (s : State) : RecvOutcome s (finishRecv st 0 0 [] s) :=
  .finishes ⟨s.phase, s.elapsed, s.rcmd, s.pcnt, s.pbuf, s.rdn, s.rdbuf, s.rxq⟩ _ _ _ _ (.inr ⟨rfl, rfl, rfl⟩) rfl

theorem recvHeaderRead_outcome (h : Byte) (s : State) : RecvOutcome s (recvHeaderRead h s) := by
  rcases recvHeaderRead_cases h s with ⟨_, h⟩ | ⟨_, h⟩ <;> rw [h]
  · exact finishRecv_outcome_error ..
  · exact .continues ⟨_, _, _, _, _, _, _, _⟩ rfl

theorem recvParamsRead_outcome (c : Bool) (p : List Byte) (s : State) : RecvOutcome s (recvParamsRead c p s) := by
  cases c with
  | false => exact .finishes ⟨_, _, _, _, _, _, _, _⟩ _ _ _ _ (.inl rfl) (recvParamsRead_false ..)
  | true => exact .continues ⟨_, _, _, _, _, _, _, _⟩ rfl

theorem recvCommandRead_outcome (c : Bool) (len : Count) (cb : Byte) (s : State) :
    RecvOutcome s (recvCommandRead c len cb s) := by
  rcases recvCommandRead_cases c len cb s with ⟨_, h⟩ | ⟨_, _, h⟩ | ⟨_, _, h⟩ <;> rw [h]
  · exact .finishes ⟨_, _, _, _, _, _, _, _⟩ _ _ _ _ (.inr ⟨rfl, rfl, rfl⟩) rfl
  · exact .continues ⟨_, _, _, _, _, _, _, _⟩ rfl
  · exact .of_write (v := ⟨_, _, _, _, _, _, _, _⟩) (recvParamsRead_outcome c [] _)

theorem recvCompare_outcome (k : Byte) (s : State) : RecvOutcome s (recvCompare k s) := by
  rcases recvCompare_cases k s with ⟨_, h⟩ | ⟨_, h⟩ <;> rw [h]
  · exact finishRecv_outcome_error ..
  · exact .finishes ⟨s.phase, _, _, _, _, _, _, _⟩ _ _ _ _ (.inl rfl) rfl

theorem recvByte_outcome {next : Byte → State → State} (hn : ∀ b s, RecvOutcome s (next b s)) (s : State) :
    RecvOutcome s (recvByte next s) := by
  rcases recvByte_cases next s with ⟨a, b, l, _, _, _, h⟩ | ⟨b, l, _, _, h⟩ | ⟨_, _, h⟩ | ⟨_, _, h⟩ <;> rw [h]
  · exact .of_write (v := ⟨s.phase, _, _, _, _, _, _, l⟩) (hn a _)
  · exact .continues ⟨_, _, _, _, _, _, _, _⟩ rfl
  · exact finishRecv_outcome_error ..
  · exact .refl s

theorem recvBlock_outcome (c : Bool) (s : State) : RecvOutcome s (recvBlock c s) := by
  rcases recvBlock_cases c s with ⟨b, l, _, _, h⟩ | ⟨b, l, _, _, h⟩ | ⟨_, _, h⟩ | ⟨_, _, h⟩ <;> rw [h]
  · exact .of_write (v := ⟨s.phase, _, _, _, _, _, _, l⟩) (recvParamsRead_outcome c _ _)
  · exact .continues ⟨_, _, _, _, _, _, _, _⟩ rfl
  · exact finishRecv_outcome_error ..
  · exact .refl s

theorem recvIteration_outcome (c : Bool) (len : Count) (s : State) : RecvOutcome s (recvIteration c len s) := by
  unfold recvIteration
  split
  · exact recvByte_outcome recvHeaderRead_outcome s
  · exact recvByte_outcome (recvCommandRead_outcome c len) s
  · exact recvBlock_outcome c s
  · exact recvByte_outcome recvCompare_outcome s
  all_goals exact .refl s

/-- Settles O37: RECV's acceptance writes RTO and its own registers, and its other steps are as `RecvOutcome` says. -/
theorem recvFrame : Obligations.RecvFrame := by
  intro c len timeout s t h
  have hq := exec_takesAtMostFront h
  rcases execRecv_next h with ⟨_, rfl⟩ | ⟨_, rfl⟩
  · cases timeout <;> exact ⟨rfl, .inl rfl, hq⟩
  · cases recvIteration_outcome c len s with
    | continues v ht => rw [ht] at hq ⊢; exact ⟨rfl, .inl rfl, hq⟩
    | finishes v st b n pl _ ht => rw [ht] at hq ⊢; exact ⟨rfl, .inr rfl, hq⟩

/-! ### Every command -/

/-- What running a command can come to. -/
inductive ExecOutcome (i : Instr) (s t : State) : Prop
  | framer (h : FramerOutcome i s t)
  | scans (p : Phase) (e : Ticks) (d : Count) (b : List Byte) (r : Option Response) (q : List Byte)
      (hrecv : p.isRecv = false) (ht : t = { s with phase := p, elapsed := e, disc := d, txb := b, rsp := r, rxq := q })
      (hr : Answers s t)
  | recvStarts (c : Bool) (len : Count) (timeout : Option Word) (hi : i = .recv c len timeout) (hp : s.phase = .idle)
      (ht : t = recvStart timeout s)
  | receives (c : Bool) (len : Count) (timeout : Option Word) (hi : i = .recv c len timeout)
      (hp : s.phase.isRecv = true) (h : RecvOutcome s t)

theorem syncStart_outcome (i : Instr) (s : State) : ExecOutcome i s (syncStart s) := by
  rcases syncStart_cases s with ⟨_, _, h⟩ | ⟨_, h⟩ <;> rw [h]
  · exact .scans _ s.elapsed s.disc _ _ s.rxq rfl rfl (.inr ⟨_, rfl, isAnswer_error ..⟩)
  · exact .scans _ _ _ s.txb s.rsp s.rxq rfl rfl (.inl rfl)

theorem syncIteration_outcome (i : Instr) (timeout : Word) {s : State} (hp : s.phase = .syncScan) :
    ExecOutcome i s (syncIteration timeout s) := by
  have hrecv : s.phase.isRecv = false := by rw [hp]; rfl
  rcases syncIteration_cases timeout s with ⟨_, h⟩ | ⟨_, _, h⟩ | ⟨_, l, _, _, _, h⟩ | ⟨_, _, h⟩ <;> rw [h]
  · exact .scans _ s.elapsed s.disc _ _ s.rxq rfl rfl (.inr ⟨_, rfl, isAnswer_ok ..⟩)
  · exact .scans _ s.elapsed s.disc _ _ s.rxq rfl rfl (.inr ⟨_, rfl, isAnswer_error ..⟩)
  · exact .scans s.phase s.elapsed _ s.txb s.rsp l hrecv rfl (.inl rfl)
  · exact .scans s.phase s.elapsed s.disc s.txb s.rsp s.rxq hrecv rfl (.inl rfl)

theorem exec_outcome {i : Instr} {s t : State} (h : exec i s = .next t) : ExecOutcome i s t := by
  cases i with
  | send | rawhc | rawdat | rawck => exact .framer (exec_framerOutcome rfl h)
  | sync timeout =>
    rcases execSync_next h with ⟨_, rfl⟩ | ⟨hp, rfl⟩
    · exact syncStart_outcome _ s
    · exact syncIteration_outcome _ timeout hp
  | recv c len timeout =>
    rcases execRecv_next h with ⟨hp, rfl⟩ | ⟨hp, rfl⟩
    · exact .recvStarts c len timeout rfl hp rfl
    · exact .receives c len timeout rfl hp (recvIteration_outcome c len s)
  | cksum l =>
    obtain ⟨_, rfl⟩ := execCksum_next h
    exact .scans _ s.elapsed s.disc _ _ s.rxq rfl rfl (.inr ⟨_, rfl, isAnswer_ok ..⟩)

@[simp] theorem recvStart_txlog (timeout : Option Word) (s : State) : (recvStart timeout s).txlog = s.txlog := by
  cases timeout <;> rfl

@[simp] theorem recvStart_txacc (timeout : Option Word) (s : State) : (recvStart timeout s).txacc = s.txacc := by
  cases timeout <;> rfl

@[simp] theorem recvStart_rsp (timeout : Option Word) (s : State) : (recvStart timeout s).rsp = s.rsp := by
  cases timeout <;> rfl

/-- A command writes to TX only in the TX accept of a *_WR phase, where it answers OK; elsewhere what it answers has
data only if it is OK. -/
theorem exec_tx_cases {i : Instr} {s t : State} (h : exec i s = .next t) :
    (t.txlog = s.txlog ∧ t.txacc = s.txacc ∧ Answers s t) ∨
    (s.phase.isWrite = true ∧ t.txlog = s.txlog ++ [s.txb] ∧
      (t.txacc = s.txacc ∨ s.phase = .rawhcWr ∨ s.phase = .rawdatWr) ∧
      ∃ b n, t.rsp = some ⟨responseWord .ok s.opl.op b n, []⟩) := by
  cases exec_outcome h with
  | framer h =>
    cases h with
    | starts p l r hp _ ht hr => exact .inl ⟨by rw [ht], by rw [ht], hr⟩
    | accepted a b n hp ha ht =>
      subst ht
      exact .inr ⟨hp, rfl, ha.imp_right (.imp And.left And.left), b, n, rfl⟩
  | scans p e d b r q _ ht hr => exact .inl ⟨by rw [ht], by rw [ht], hr⟩
  | recvStarts c len timeout hi hp ht => subst ht; exact .inl ⟨by simp, by simp, .inl (by simp)⟩
  | receives c len timeout _ hp h =>
    cases h with
    | continues v ht => subst ht; exact .inl ⟨rfl, rfl, .inl rfl⟩
    | finishes v st b n pl hdata ht => subst ht; exact .inl ⟨rfl, rfl, .inr ⟨_, rfl, _, _, _, _, rfl, hdata⟩⟩

theorem exec_rto_cases {i : Instr} {s t : State} (h : exec i s = .next t) :
    t.rto = s.rto ∨
    (s.phase = .idle ∧ t.phase = .recvHdr ∧ ∃ c len timeout, i = .recv c len (some timeout) ∧ t.rto = timeout) ∨
    (s.phase.isRecv = true ∧ t.phase = .resp ∧ t.rto = s.cfg.defaultRto) := by
  cases exec_outcome h with
  | framer h =>
    cases h with
    | starts p l r hp _ ht hr => exact .inl (by rw [ht])
    | accepted a b n hp ha ht => exact .inl (by rw [ht]; rfl)
  | scans p e d b r q _ ht hr => exact .inl (by rw [ht])
  | recvStarts c len timeout hi hp ht =>
    subst ht
    cases timeout with
    | none => exact .inl rfl
    | some timeout => exact .inr (.inl ⟨hp, rfl, c, len, timeout, hi, rfl⟩)
  | receives c len timeout _ hp h =>
    cases h with
    | continues v ht => exact .inl (by rw [ht]; rfl)
    | finishes v st b n pl hdata ht => subst ht; exact .inr (.inr ⟨hp, rfl, rfl⟩)

/-! ### What a step of any agent can come to -/

/-- What the step of the agent that `e` names can come to. -/
inductive StepOutcome (e : Event) (s t : State) : Prop
  /-- Its step is not enabled, or it moves the RX queue, ELAPSED or the configuration inputs alone. -/
  | quiet (q : List Byte) (n : Ticks) (c : Cfg) (ht : t = { s with rxq := q, elapsed := n, cfgIn := c })
  /-- The core, or the TX accept, goes on with the command in progress. -/
  | continues (i : Instr) (hr : s.rst = false) (hc : s.current = some i)
      (he : (e = .core ∧ s.phase.isRxWait = true) ∨ (e = .txAccept ∧ s.phase.isWrite = true ∧ s.txb ≠ []))
      (hexec : exec i s = .next t)
  | illegal (x : Transaction) (he : e = .offer x) (hr : s.rst = false) (hp : s.phase = .idle) (hw : x.wf = true)
      (ht : t = respond .illegalCommand 0 0 [] (latch x s))
  | accepts (x : Transaction) (i : Instr) (he : e = .offer x) (hr : s.rst = false) (hp : s.phase = .idle)
      (hw : x.wf = true) (hi : decode s.cfg.lenMode x = .ok i) (hexec : exec i (latch x s) = .next t)
  | taken (he : e = .hostTake) (hr : s.rst = false) (hp : s.phase = .resp) (ht : t = takeResponse s)
  | asserted (he : e = .assertReset) (ht : t = assertReset s)
  | released (he : e = .releaseReset) (hr : s.rst = true) (ht : t = releaseReset s)

theorem StepOutcome.unchanged (e : Event) (s : State) : StepOutcome e s s := .quiet s.rxq s.elapsed s.cfgIn rfl

theorem stepRxArrive_outcome (e : Event) (b : Byte) (lose : Bool) (s : State) :
    StepOutcome e s (stepRxArrive b lose s) := by
  unfold stepRxArrive
  split
  · exact .unchanged e s
  · exact .quiet _ s.elapsed s.cfgIn rfl

theorem stepTick_outcome (e : Event) (s : State) : StepOutcome e s (stepTick s) := by
  unfold stepTick
  split
  · exact .unchanged e s
  · exact .quiet s.rxq _ s.cfgIn rfl

theorem perform_outcome {e : Event} {s t : State} (h : perform e s = .next t) : StepOutcome e s t := by
  cases e with
  | core =>
    rcases stepCore_next h with ⟨rfl, _⟩ | ⟨i, hr, hp, hc, hexec⟩
    · exact .unchanged _ _
    · exact .continues i hr hc (.inl ⟨rfl, hp⟩) hexec
  | offer x =>
    rcases stepOffer_next h with ⟨rfl, _⟩ | ⟨hr, hp, hw, ⟨_, _, ht⟩ | ⟨i, hi, hexec⟩⟩
    · exact .unchanged _ _
    · exact .illegal x rfl hr hp hw ht
    · exact .accepts x i rfl hr hp hw hi hexec
  | txAccept =>
    rcases stepTxAccept_next h with ⟨rfl, _⟩ | ⟨i, hr, hp, htxb, hc, hexec⟩
    · exact .unchanged _ _
    · exact .continues i hr hc (.inr ⟨rfl, hp, htxb⟩) hexec
  | hostTake =>
    cases h
    unfold stepHostTake
    split
    · next hg => exact .taken rfl hg.1 hg.2 rfl
    · exact .unchanged _ _
  | rxArrive b lose => cases h; exact stepRxArrive_outcome _ b lose s
  | tick => cases h; exact stepTick_outcome _ s
  | setInputs c => cases h; exact .quiet s.rxq s.elapsed c rfl
  | assertReset => cases h; exact .asserted rfl rfl
  | releaseReset =>
    cases h
    split
    · next hr => exact .released rfl hr rfl
    · exact .unchanged _ _

/-- A step is the step of the agent whose event comes next. -/
theorem step_outcome {s t : State} (h : step s = .next t) :
    StepOutcome (nextEvent s).1 { s with sched := (nextEvent s).2 } t := perform_outcome h

theorem takeResponse_none {s : State} (h : s.rsp = none) : takeResponse s = s := by simp [takeResponse, h]

theorem takeResponse_eq (s : State) : ∃ p l, takeResponse s = { s with rsp := none, phase := p, hostlog := l } := by
  cases hr : s.rsp with
  | none => exact ⟨s.phase, s.hostlog, by rw [takeResponse_none hr, ← hr]⟩
  | some r => exact ⟨_, _, takeResponse_some hr⟩

/-! ### TXACC, txlog and RTO over every step -/

theorem isWrite_of_isRxWait {p : Phase} (h : p.isRxWait = true) : p.isWrite = false := by
  revert h
  cases p <;> decide

/-- Every response that the state holds is an answer. -/
def HoldsAnswer (s : State) : Prop := ∀ r, s.rsp = some r → ∃ op, IsAnswer op r

theorem holdsAnswer_of_rsp {s : State} {op : BitVec 4} {r : Response} (hr : s.rsp = some r) (h : IsAnswer op r) :
    HoldsAnswer s := fun _ hr' => ⟨op, Option.some.inj (hr.symm.trans hr') ▸ h⟩

theorem Answers.rsp_kept_or_holdsAnswer {s t : State} (h : Answers s t) : t.rsp = s.rsp ∨ HoldsAnswer t :=
  h.imp_right fun ⟨_, hr, ha⟩ => holdsAnswer_of_rsp hr ha

/-- A step writes to TX in the TX accept alone, which answers OK; every other step but reset leaves txlog and TXACC,
and a response that it comes to hold has data only if it is OK. -/
theorem step_tx_cases {s t : State} (h : step s = .next t) :
    (t.txlog = s.txlog ∧ t.txacc = s.txacc ∧ t.cfg = s.cfg ∧
      (t.rsp = s.rsp ∨ HoldsAnswer t)) ∨
    ((nextEvent s).1 = .txAccept ∧ s.txb ≠ [] ∧ t.txlog = s.txlog ++ [s.txb] ∧
      (t.txacc = s.txacc ∨ s.phase = .rawhcWr ∨ s.phase = .rawdatWr) ∧
      ∃ op b n, t.rsp = some ⟨responseWord .ok op b n, []⟩) ∨
    (((nextEvent s).1 = .assertReset ∨ (nextEvent s).1 = .releaseReset) ∧ t.txlog = s.txlog ∧ t.rsp = none) := by
  cases step_outcome h with
  | quiet q n c ht => subst ht; exact .inl ⟨rfl, rfl, rfl, .inl rfl⟩
  | continues i hr hc he hexec =>
    rcases exec_tx_cases hexec with ⟨hlog, hacc, hans⟩ | ⟨hwrite, hlog, hacc, b, n, hrsp⟩
    · exact .inl ⟨hlog, hacc, (exec_keeps hexec).cfg, hans.rsp_kept_or_holdsAnswer⟩
    · rcases he with ⟨_, hwait⟩ | ⟨he, _, htxb⟩
      · simp [isWrite_of_isRxWait hwait] at hwrite
      · exact .inr (.inl ⟨he, htxb, hlog, hacc, _, b, n, hrsp⟩)
  | illegal x he hr hp hw ht =>
    subst ht
    exact .inl ⟨rfl, rfl, rfl, .inr (holdsAnswer_of_rsp (respond_rsp ..) (isAnswer_error ..))⟩
  | accepts x i he hr hp hw hi hexec =>
    rcases exec_tx_cases hexec with ⟨hlog, hacc, hans⟩ | ⟨hwrite, _⟩
    · exact .inl ⟨hlog, hacc, (exec_keeps hexec).cfg, hans.rsp_kept_or_holdsAnswer⟩
    · rw [latch_phase, hp] at hwrite
      cases hwrite
  | taken he hr hp ht =>
    obtain ⟨p, l, htake⟩ := takeResponse_eq { s with sched := (nextEvent s).2 }
    rw [ht, htake]
    exact .inl ⟨rfl, rfl, rfl, .inr nofun⟩
  | asserted he ht => subst ht; exact .inr (.inr ⟨.inl he, rfl, rfl⟩)
  | released he hr ht => subst ht; exact .inr (.inr ⟨.inr he, rfl, rfl⟩)

/-- Settles O52: besides reset only the TX accept writes TXACC, in RAWHC's or RAWDAT's write phase. -/
theorem onlyRawWritesAndResetChangeTheAccumulator : Obligations.OnlyRawWritesAndResetChangeTheAccumulator := by
  intro s t h hne
  rcases step_tx_cases h with ⟨_, hacc, _⟩ | ⟨he, _, _, hacc | hphase, _⟩ | ⟨he, _⟩
  · exact absurd hacc hne
  · exact absurd hacc hne
  · exact .inl ⟨he, hphase⟩
  · exact .inr he

/-- Settles O56: besides the TX accept no step writes txlog, reset included. -/
theorem txLogGrowsByWholeWrites : Obligations.TxLogGrowsByWholeWrites := by
  intro s t h
  rcases step_tx_cases h with ⟨hlog, _⟩ | ⟨he, htxb, hlog, _⟩ | ⟨_, hlog, _⟩
  · exact .inl hlog
  · exact .inr ⟨he, htxb, hlog⟩
  · exact .inl hlog

/-- Settles O59: the step that writes to TX answers OK, and reset holds no response. -/
theorem errorResponsesWriteNothing : Obligations.ErrorResponsesWriteNothing := by
  intro s t r h hnone hr herr
  rcases step_tx_cases h with ⟨hlog, hacc, hcfg, hrsp | hrsp⟩ | ⟨_, _, _, _, op, b, n, hrsp⟩ | ⟨_, _, hrsp⟩
  · rw [hrsp, hnone] at hr
    cases hr
  · obtain ⟨op, hans⟩ := hrsp r hr
    exact ⟨hlog, hacc, hcfg, hans.noData_of_error herr⟩
  · rw [hrsp] at hr
    cases hr
    simp at herr
  · rw [hrsp] at hr
    cases hr

/-- An accepted transaction that decodes to a RECV with an explicit timeout has T = 1 and that timeout word. -/
theorem timeout_of_decode_recv {mode : LenMode} {x : Transaction} {c : Bool} {len : Count} {timeout : Word}
    (h : decode mode x = .ok (.recv c len (some timeout))) :
    (Opl.ofTransaction x).t = true ∧ (Opl.ofTransaction x).timeout = some timeout := by
  rw [← encode_of_decode h]
  exact ⟨descT_mkDesc .., rfl⟩

/-- Settles O53: of the commands RECV alone writes RTO, at its acceptance and with its response. -/
theorem onlyRecvAndResetChangeTheTimeout : Obligations.OnlyRecvAndResetChangeTheTimeout := by
  intro s t h hne
  cases step_outcome h with
  | quiet q n c ht => exact absurd (by rw [ht]) hne
  | continues i hr hc he hexec =>
    rcases exec_rto_cases hexec with hrto | ⟨hidle, _⟩ | hends
    · exact absurd hrto hne
    · have hidle : s.phase = .idle := hidle
      rcases he with ⟨_, hwait⟩ | ⟨_, hwrite, _⟩
      · simp [hidle, Phase.isRxWait] at hwait
      · simp [hidle, Phase.isWrite] at hwrite
    · exact .inr (.inl hends)
  | illegal x he hr hp hw ht => exact absurd (by rw [ht]; rfl) hne
  | accepts x i he hr hp hw hi hexec =>
    rcases exec_rto_cases hexec with hrto | ⟨_, hphase, c, len, timeout, rfl, hrto⟩ | ⟨hrecv, _⟩
    · exact absurd hrto hne
    · obtain ⟨hT, htimeout⟩ := timeout_of_decode_recv hi
      have hopl : t.opl = Opl.ofTransaction x := (exec_keeps hexec).opl
      exact .inl ⟨hp, hphase, by rw [hopl, hT], by rw [hopl, htimeout, hrto]⟩
    · rw [latch_phase, hp] at hrecv
      cases hrecv
  | taken he hr hp ht =>
    obtain ⟨p, l, htake⟩ := takeResponse_eq { s with sched := (nextEvent s).2 }
    exact absurd (by rw [ht, htake]) hne
  | asserted he => exact .inr (.inr (.inl he))
  | released he => exact .inr (.inr (.inr he))

/-- Settles O50: the release of an asserted rst appends the rate it latches, and no other step writes the record. -/
theorem rateIsPresentedOnceAtTheRelease : Obligations.RateIsPresentedOnceAtTheRelease := by
  refine ⟨fun s es hr => ⟨_, step_releaseReset hr es, rfl, rfl⟩, fun s t h hno => ?_⟩
  exact (perform_keepsConfig (s := { s with sched := (nextEvent s).2 }) h hno).configOut

/-! ### Waiting for an agent of the environment (R60, R206) -/

/-- While the core waits for the TX transport or for the Host, every other agent's step but the assertion of rst moves
the RX queue, ELAPSED and the configuration inputs alone. -/
theorem perform_while_waiting {e : Event} {s : State} (hr : s.rst = false) (hidle : s.phase ≠ .idle)
    (hwait : s.phase.isRxWait = false) (haccept : e = .txAccept → s.phase.isWrite = false)
    (htake : e = .hostTake → s.phase ≠ .resp) (hassert : e ≠ .assertReset) :
    ∃ q n c, perform e s = .next { s with rxq := q, elapsed := n, cfgIn := c } := by
  obtain ⟨t, h⟩ := perform_exists_next e s
  cases perform_outcome h with
  | quiet q n c ht => exact ⟨q, n, c, by rw [h, ht]⟩
  | continues i _ _ he =>
    rcases he with ⟨_, hrx⟩ | ⟨he, hwrite, _⟩
    · simp [hwait] at hrx
    · simp [haccept he] at hwrite
  | illegal x _ _ hp => exact absurd hp hidle
  | accepts x i _ _ hp => exact absurd hp hidle
  | taken he _ hp => exact absurd hp (htake he)
  | asserted he => exact absurd he hassert
  | released _ hrst => simp [hr] at hrst

/-- Settles O57: the Host's take is the one step but reset that leaves RESP. -/
theorem responseIsHeldUntilTaken : Obligations.ResponseIsHeldUntilTaken := by
  refine ⟨fun s r es hr hp hrsp => ?taken, fun s t hr hp h htake hassert => ?held⟩
  case taken =>
    rw [step_hostTake hr hp, takeResponse_some hrsp]
    rfl
  case held =>
    obtain ⟨q, n, c, hstep⟩ := perform_while_waiting (s := { s with sched := (nextEvent s).2 }) hr (by simp [hp])
      (by simp [hp, Phase.isRxWait]) (fun _ => by simp [hp, Phase.isWrite]) (absurd · htake) hassert
    cases hstep.symm.trans h
    exact ⟨hp, rfl⟩

theorem isWrite_waits {p : Phase} (h : p.isWrite = true) : p ≠ .idle ∧ p ≠ .resp := by
  revert h
  cases p <;> decide

/-- Settles O58: by induction on the schedule, each of whose steps leaves the phase, the offered write, txlog and RSP.
-/
theorem unacceptedWriteWaitsForEver : Obligations.UnacceptedWriteWaitsForEver := by
  intro es
  induction es with
  | nil => exact fun s _ _ _ => ⟨_, rfl, rfl, rfl, rfl, rfl⟩
  | cons e es ih =>
    intro s hr hp hes
    obtain ⟨⟨haccept, hassert⟩, hrest⟩ := List.forall_mem_cons.mp hes
    obtain ⟨hidle, hresp⟩ := isWrite_waits hp
    obtain ⟨q, n, c, hstep⟩ := perform_while_waiting (s := s.scheduled es) hr hidle (isRxWait_of_isWrite hp)
      (absurd · haccept) (fun _ => hresp) hassert
    obtain ⟨u, hu, hkept⟩ := ih { s with rxq := q, elapsed := n, cfgIn := c } hr hp hrest
    exact ⟨u, (steps_succ ((step_scheduled_cons s e es).trans hstep)).trans hu, hkept⟩

end Sys2Proof.Machine

/-! PROOFS. The invariant: it holds after reset, and every step keeps it (R33 to R41, R47, R48, R68, R96, R152, R156,
R230). -/

namespace Sys2Proof.Machine

/-! ### The invariant outside RECV -/

/-- The part of the invariant that says nothing of the phase. -/
structure Bounded (s : State) : Prop where
  rdbuf_le : s.rdbuf.length ≤ s.rdn.toNat
  opl_fits : s.opl.payload.length ≤ 65535
  pbuf_fits : s.pbuf.length ≤ 65535
  txlog_sizes : ∀ w ∈ s.txlog, 1 ≤ w.length ∧ w.length ≤ 65535

theorem Inv.bounded {s : State} (h : Inv s) : Bounded s := ⟨h.rdbuf_le, h.opl_fits, h.pbuf_fits, h.txlog_sizes⟩

theorem pendingWrite_of_not_write {s : State} (h : s.phase.isWrite = false) : pendingWrite s = [] := by
  cases hp : s.phase <;> simp [Phase.isWrite, hp] at h
  all_goals simp [pendingWrite, hp]

theorem Inv.txb_nil {s : State} (h : Inv s) (hp : s.phase.isWrite = false) : s.txb = [] := by
  rw [h.txb_eq, pendingWrite_of_not_write hp]

theorem Inv.rsp_none {s : State} (h : Inv s) (hp : s.phase ≠ .resp) : s.rsp = none :=
  not_not.mp (mt h.rsp_iff.mp hp)

theorem Inv.rst_false {s : State} (h : Inv s) (hp : s.phase ≠ .idle) : s.rst = false :=
  Bool.eq_false_iff.mpr (mt h.rst_idle hp)

theorem isRecv_eq_false_iff (p : Phase) :
    p.isRecv = false ↔ p ≠ .recvHdr ∧ p ≠ .recvCmd ∧ p ≠ .recvPar ∧ p ≠ .recvCks := by
  cases p <;> decide

section
variable {s : State} (hb : Bounded s)
include hb

theorem inv_outside_recv (hp : s.phase.isRecv = false) (hrto : s.rto = s.cfg.defaultRto)
    (hrsp : s.rsp ≠ none ↔ s.phase = .resp) (htxb : s.txb = pendingWrite s)
    (hne : s.phase.isWrite = true → s.txb ≠ [])
    (hfits : s.phase = .sendWr → admissible s.cfg s.opl.payload.length s.opl.c = true)
    (hop : ∀ op, phaseOp s.phase = some op → s.opl.op = op) (htimeout : s.phase = .syncScan → s.opl.timeout ≠ none)
    (hword : ∀ r, s.rsp = some r → Status.ofCode r.statusField ≠ none ∧ r.opxField = s.opl.op)
    (hrst : s.rst = true → s.phase = .idle) : Inv s := by
  obtain ⟨hhdr, hcmd, hpar, hcks⟩ := (isRecv_eq_false_iff s.phase).mp hp
  exact {
    rsp_iff := hrsp, txb_eq := htxb, txb_ne := hne, send_fits := hfits, rto_default := fun _ => hrto
    rdbuf_le := hb.rdbuf_le, rdbuf_lt := by simp [hp], rdn_one := by simp [hhdr, hcmd, hcks], rdn_par := by simp [hpar]
    recv_fits := by simp [hpar, hcks], cks_ready := by simp [hcks], opl_fits := hb.opl_fits, pbuf_fits := hb.pbuf_fits
    op_phase := hop, sync_timeout := htimeout, rsp_word := hword, txlog_sizes := hb.txlog_sizes, rst_idle := hrst }

theorem inv_of_idle (hp : s.phase = .idle) (hrsp : s.rsp = none) (htxb : s.txb = []) (hrto : s.rto = s.cfg.defaultRto) :
    Inv s := by
  have hpending : pendingWrite s = [] := pendingWrite_of_not_write (by simp [hp, Phase.isWrite])
  apply inv_outside_recv hb
  all_goals simp [hp, hrsp, htxb, hrto, hpending, Phase.isRecv, Phase.isWrite, phaseOp]

theorem inv_of_syncScan (hp : s.phase = .syncScan) (hr : s.rst = false) (hrsp : s.rsp = none) (htxb : s.txb = [])
    (hrto : s.rto = s.cfg.defaultRto) (hop : s.opl.op = 5) (htimeout : s.opl.timeout ≠ none) : Inv s := by
  have hpending : pendingWrite s = [] := pendingWrite_of_not_write (by simp [hp, Phase.isWrite])
  apply inv_outside_recv hb
  all_goals simp [hp, hr, hrsp, htxb, hrto, hop, htimeout, hpending, Phase.isRecv, Phase.isWrite, phaseOp]

theorem inv_of_write (hp : s.phase.isWrite = true) (hr : s.rst = false) (hrsp : s.rsp = none)
    (hrto : s.rto = s.cfg.defaultRto) (htxb : s.txb = pendingWrite s) (hne : s.txb ≠ [])
    (hfits : s.phase = .sendWr → admissible s.cfg s.opl.payload.length s.opl.c = true)
    (hop : phaseOp s.phase = some s.opl.op) : Inv s := by
  have hrecv : s.phase.isRecv = false := by revert hp; cases s.phase <;> decide
  have hscan : s.phase ≠ .syncScan := by rintro h; simp [h, Phase.isWrite] at hp
  obtain ⟨_, hresp⟩ := isWrite_waits hp
  exact inv_outside_recv hb hrecv hrto (by simp [hrsp, hresp]) htxb (fun _ => hne) hfits (by simp [hop])
    (absurd · hscan) (by simp [hrsp]) (by simp [hr])

/-- Every response has an assigned status and the latched opcode, whatever else it says. -/
theorem inv_respond (hr : s.rst = false) (hrto : s.rto = s.cfg.defaultRto) (st : Status) (b : Byte) (n : Count)
    (pl : List Byte) : Inv (respond st b n pl s) := by
  have hb' : Bounded (respond st b n pl s) := ⟨hb.rdbuf_le, hb.opl_fits, hb.pbuf_fits, hb.txlog_sizes⟩
  have hpending : pendingWrite (respond st b n pl s) = [] := rfl
  apply inv_outside_recv hb'
  all_goals simp [hr, hrto, hpending, Phase.isRecv, Phase.isWrite, phaseOp]

theorem inv_finishRecv (hr : s.rst = false) (st : Status) (b : Byte) (n : Count) (pl : List Byte) :
    Inv (finishRecv st b n pl s) :=
  inv_respond (s := { s with rto := s.cfg.defaultRto }) ⟨hb.rdbuf_le, hb.opl_fits, hb.pbuf_fits, hb.txlog_sizes⟩ hr rfl
    st b n pl

end

/-- The invariant reads neither the RX queue, ELAPSED, DISC, the configuration inputs nor the schedule. -/
theorem Inv.of_unread {s : State} (h : Inv s) (q : List Byte) (n : Ticks) (d : Count) (c : Cfg) (es : List Event) :
    Inv { s with rxq := q, elapsed := n, disc := d, cfgIn := c, sched := es } :=
  ⟨h.rsp_iff, h.txb_eq, h.txb_ne, h.send_fits, h.rto_default, h.rdbuf_le, h.rdbuf_lt, h.rdn_one, h.rdn_par, h.recv_fits,
    h.cks_ready, h.opl_fits, h.pbuf_fits, h.op_phase, h.sync_timeout, h.rsp_word, h.txlog_sizes, h.rst_idle⟩

/-! ### The invariant in RECV -/

/-- What a RECV finds in every one of its phases. -/
structure Receiving (s : State) : Prop where
  bounded : Bounded s
  rst_false : s.rst = false
  rsp_none : s.rsp = none
  txb_nil : s.txb = []
  op_eq : s.opl.op = 6

theorem isRecv_not {p : Phase} (h : p.isRecv = true) :
    p.isWrite = false ∧ p ≠ .idle ∧ p ≠ .resp ∧ p ≠ .sendWr ∧ p ≠ .syncScan ∧ phaseOp p = some 6 := by
  revert h
  cases p <;> decide

theorem Inv.receiving {s : State} (h : Inv s) (hp : s.phase.isRecv = true) : Receiving s := by
  obtain ⟨hwrite, hidle, hresp, _, _, hop⟩ := isRecv_not hp
  exact ⟨h.bounded, h.rst_false hidle, h.rsp_none hresp, h.txb_nil hwrite, h.op_phase 6 hop⟩

theorem inv_of_recv {s : State} (h : Receiving s) (hp : s.phase.isRecv = true) (hlt : s.rdbuf.length < s.rdn.toNat)
    (hone : s.phase = .recvHdr ∨ s.phase = .recvCmd ∨ s.phase = .recvCks → s.rdn = 1)
    (hpar : s.phase = .recvPar → s.rdn = s.pcnt)
    (hfits : s.phase = .recvPar ∨ s.phase = .recvCks → admissible s.cfg s.pcnt.toNat s.opl.c = true)
    (hcks : s.phase = .recvCks → s.opl.c = true ∧ s.pbuf.length = s.pcnt.toNat) : Inv s := by
  obtain ⟨⟨hle, hopl, hpbuf, hlog⟩, hr, hrsp, htxb, hop⟩ := h
  obtain ⟨hwrite, hidle, hresp, hsend, hscan, hphase⟩ := isRecv_not hp
  exact {
    rsp_iff := by simp [hrsp, hresp], txb_eq := by rw [htxb, pendingWrite_of_not_write hwrite]
    txb_ne := by simp [hwrite], send_fits := by simp [hsend], rto_default := by simp [hp]
    rdbuf_le := hle, rdbuf_lt := fun _ => hlt, rdn_one := hone, rdn_par := hpar, recv_fits := hfits, cks_ready := hcks
    opl_fits := hopl, pbuf_fits := hpbuf, op_phase := by simp [hphase, hop], sync_timeout := by simp [hscan]
    rsp_word := by simp [hrsp], txlog_sizes := hlog, rst_idle := by simp [hr] }

section
variable {s : State}

theorem Receiving.finish (h : Receiving s) (st : Status) (b : Byte) (n : Count) (pl : List Byte) :
    Inv (finishRecv st b n pl s) := inv_finishRecv h.bounded h.rst_false st b n pl

/-- Taking bytes, up to RDN of them. -/
theorem Receiving.take (h : Receiving s) (l : List Byte) {r : List Byte} (hr : r.length ≤ s.rdn.toNat) :
    Receiving { s with rxq := l, rdbuf := r } :=
  ⟨⟨hr, h.bounded.opl_fits, h.bounded.pbuf_fits, h.bounded.txlog_sizes⟩, h.rst_false, h.rsp_none, h.txb_nil, h.op_eq⟩

/-- Starting a read, with what has been found so far. -/
theorem Receiving.start (h : Receiving s) (n : Count) (p : Phase) (cb : Byte) (m : Count) {pb : List Byte}
    (hpb : pb.length ≤ 65535) :
    Receiving (startRead n { s with phase := p, rcmd := cb, pcnt := m, pbuf := pb }) :=
  ⟨⟨Nat.zero_le _, h.bounded.opl_fits, hpb, h.bounded.txlog_sizes⟩, h.rst_false, h.rsp_none, h.txb_nil, h.op_eq⟩

theorem recvHeaderRead_inv (h : Receiving s) (b : Byte) : Inv (recvHeaderRead b s) := by
  rcases recvHeaderRead_cases b s with ⟨_, hread⟩ | ⟨_, hread⟩ <;> rw [hread]
  · exact h.finish ..
  · have hstart := h.start 1 .recvCmd s.rcmd s.pcnt h.bounded.pbuf_fits
    apply inv_of_recv hstart
    all_goals simp [Phase.isRecv]

theorem recvParamsRead_inv (h : Receiving s) {c : Bool} (hc : c = s.opl.c) {p : List Byte}
    (hlen : p.length = s.pcnt.toNat) (hfits : admissible s.cfg s.pcnt.toNat c = true) : Inv (recvParamsRead c p s) := by
  have hp : p.length ≤ 65535 := by have := s.pcnt.isLt; omega
  cases c with
  | false =>
    rw [recvParamsRead_false]
    exact inv_finishRecv (s := { s with pbuf := p })
      ⟨h.bounded.rdbuf_le, h.bounded.opl_fits, hp, h.bounded.txlog_sizes⟩ h.rst_false ..
  | true =>
    rw [recvParamsRead_true]
    have hstart := h.start 1 .recvCks s.rcmd s.pcnt hp
    apply inv_of_recv hstart
    all_goals simp [Phase.isRecv, ← hc, hlen, hfits]

theorem recvCommandRead_inv (h : Receiving s) {c : Bool} (hc : c = s.opl.c) (len : Count) (cb : Byte) :
    Inv (recvCommandRead c len cb s) := by
  rcases recvCommandRead_cases c len cb s with ⟨_, hread⟩ | ⟨hfits, hne, hread⟩ | ⟨hfits, hzero, hread⟩ <;> rw [hread]
  · exact inv_finishRecv (s := { s with rcmd := cb, pcnt := _ })
      ⟨h.bounded.rdbuf_le, h.bounded.opl_fits, h.bounded.pbuf_fits, h.bounded.txlog_sizes⟩ h.rst_false ..
  · have hstart := h.start (paramCount s.cfg cb len) .recvPar cb (paramCount s.cfg cb len) h.bounded.pbuf_fits
    have hpos : 0 < (paramCount s.cfg cb len).toNat := by
      rw [Nat.pos_iff_ne_zero]
      exact fun h0 => hne (BitVec.eq_of_toNat_eq h0)
    apply inv_of_recv hstart
    all_goals simp [Phase.isRecv, ← hc, hpos, hfits]
  · have hstart := h.start 0 .recvPar cb 0 h.bounded.pbuf_fits
    exact recvParamsRead_inv hstart hc rfl (by simpa [hzero] using hfits)

theorem recvCompare_inv (h : Receiving s) (k : Byte) : Inv (recvCompare k s) := by
  rcases recvCompare_cases k s with ⟨_, hread⟩ | ⟨_, hread⟩ <;> rw [hread] <;> exact h.finish ..

/-- A byte that is not the last of its read leaves the read in progress. -/
theorem Inv.take_more (h : Inv s) (hp : s.phase.isRecv = true) (b : Byte) (l : List Byte)
    (hn : s.rdbuf.length + 1 ≠ s.rdn.toNat) : Inv { s with rxq := l, rdbuf := s.rdbuf ++ [b] } := by
  have hlt := h.rdbuf_lt hp
  have hmore : (s.rdbuf ++ [b]).length < s.rdn.toNat := by rw [List.length_append, List.length_singleton]; omega
  exact inv_of_recv ((h.receiving hp).take l hmore.le) hp hmore h.rdn_one h.rdn_par h.recv_fits h.cks_ready

theorem recvByte_inv {next : Byte → State → State}
    (hn : ∀ b l r, Receiving { s with rxq := l, rdbuf := r } → Inv (next b { s with rxq := l, rdbuf := r }))
    (h : Inv s) (hp : s.phase.isRecv = true) : Inv (recvByte next s) := by
  rcases recvByte_cases next s with ⟨a, b, l, _, hlast, _, hread⟩ | ⟨b, l, _, hmore, hread⟩ | ⟨_, _, hread⟩ |
    ⟨_, _, hread⟩ <;> rw [hread]
  · exact hn a l _ ((h.receiving hp).take l (by simp [hlast]))
  · exact h.take_more hp b l hmore
  · exact (h.receiving hp).finish ..
  · exact h

theorem recvBlock_inv {c : Bool} (hc : c = s.opl.c) (h : Inv s) (hp : s.phase = .recvPar) : Inv (recvBlock c s) := by
  have hrecv : s.phase.isRecv = true := by rw [hp]; rfl
  rcases recvBlock_cases c s with ⟨b, l, _, hlast, hread⟩ | ⟨b, l, _, hmore, hread⟩ | ⟨_, _, hread⟩ |
    ⟨_, _, hread⟩ <;> rw [hread]
  · have hlen : (s.rdbuf ++ [b]).length = s.pcnt.toNat := by rw [← h.rdn_par hp, ← hlast]; simp
    exact recvParamsRead_inv ((h.receiving hrecv).take l (by simp [hlast])) hc hlen (hc ▸ h.recv_fits (.inl hp))
  · exact h.take_more hrecv b l hmore
  · exact (h.receiving hrecv).finish ..
  · exact h

theorem recvIteration_inv {c : Bool} (hc : c = s.opl.c) (len : Count) (h : Inv s) : Inv (recvIteration c len s) := by
  unfold recvIteration
  split
  · next hp => exact recvByte_inv (fun b _ _ hr => recvHeaderRead_inv hr b) h (by rw [hp]; rfl)
  · next hp => exact recvByte_inv (fun b _ _ hr => recvCommandRead_inv hr hc len b) h (by rw [hp]; rfl)
  · next hp => exact recvBlock_inv hc h hp
  · next hp => exact recvByte_inv (fun b _ _ hr => recvCompare_inv hr b) h (by rw [hp]; rfl)
  all_goals exact h

end

/-! ### SYNC's scan -/

theorem syncIteration_inv (timeout : Word) {s : State} (h : Inv s) (hp : s.phase = .syncScan) :
    Inv (syncIteration timeout s) := by
  have hr : s.rst = false := h.rst_false (by simp [hp])
  have hrto : s.rto = s.cfg.defaultRto := h.rto_default (by simp [hp, Phase.isRecv])
  rcases syncIteration_cases timeout s with ⟨_, hiter⟩ | ⟨_, _, hiter⟩ | ⟨_, l, _, _, _, hiter⟩ | ⟨_, _, hiter⟩ <;>
    rw [hiter]
  · exact inv_respond h.bounded hr hrto ..
  · exact inv_respond h.bounded hr hrto ..
  · exact h.of_unread l s.elapsed _ s.cfgIn s.sched
  · exact h

/-! ### The TX accept -/

/-- An admissible frame has no more bytes than CFG.MAXF can say (R22, R81). -/
theorem frameBytes_length {cfg : Cfg} {c : Bool} {cmd : Byte} {p : List Byte} (h : admissible cfg p.length c = true) :
    (frameBytes cfg c cmd p).length ≤ 65535 := by
  have hmaxf := cfg.maxf.isLt
  have hsize := (admissible_iff ..).mp h
  cases c
  · simp only [frameBytes_false, List.length_append, List.length_cons, List.length_nil, Bool.toNat_false] at hsize ⊢
    omega
  · simp only [frameBytes_true, List.length_append, List.length_cons, List.length_nil, Bool.toNat_true] at hsize ⊢
    omega

theorem Inv.txb_length {s : State} (h : Inv s) (hp : s.phase.isWrite = true) :
    1 ≤ s.txb.length ∧ s.txb.length ≤ 65535 := by
  refine ⟨List.length_pos_iff.mpr (h.txb_ne hp), ?_⟩
  rw [h.txb_eq]
  cases hphase : s.phase <;> simp [Phase.isWrite, hphase] at hp
  all_goals simp only [pendingWrite, hphase]
  case sendWr => exact frameBytes_length (h.send_fits hphase)
  case rawdatWr => exact h.opl_fits
  all_goals simp

theorem isFramer_of_current {i : Instr} {s : State} (hp : s.phase.isWrite = true) (hc : s.current = some i) :
    isFramer i = true := by
  cases hphase : s.phase <;> simp [Phase.isWrite, hphase] at hp
  all_goals
    simp only [State.current, hphase] at hc
    cases hc
    rfl

theorem exec_inv_of_write {i : Instr} {s t : State} (h : Inv s) (hp : s.phase.isWrite = true)
    (hc : s.current = some i) (hexec : exec i s = .next t) : Inv t := by
  obtain ⟨hidle, _⟩ := isWrite_waits hp
  have hrto : s.rto = s.cfg.defaultRto := h.rto_default (by revert hp; cases s.phase <;> decide)
  cases exec_framerOutcome (isFramer_of_current hp hc) hexec with
  | starts _ _ _ hphase => exact absurd hphase hidle
  | accepted a b n _ _ ht =>
    subst ht
    have hlog : ∀ w ∈ s.txlog ++ [s.txb], 1 ≤ w.length ∧ w.length ≤ 65535 :=
      List.forall_mem_append.mpr ⟨h.txlog_sizes, List.forall_mem_singleton.mpr (h.txb_length hp)⟩
    exact inv_respond (s := { acceptWrite s with txacc := a }) ⟨h.rdbuf_le, h.opl_fits, h.pbuf_fits, hlog⟩
      (h.rst_false hidle) hrto ..

theorem exec_inv_of_rxWait {i : Instr} {s t : State} (h : Inv s) (hp : s.phase.isRxWait = true)
    (hc : s.current = some i) (hexec : exec i s = .next t) : Inv t := by
  cases hphase : s.phase <;> simp [Phase.isRxWait, hphase] at hp
  all_goals simp only [State.current, hphase] at hc
  case syncScan =>
    obtain ⟨timeout, _, rfl⟩ := Option.map_eq_some_iff.mp hc
    cases (exec_of_scan_sync hphase timeout).symm.trans hexec
    exact syncIteration_inv timeout h hphase
  all_goals
    cases hc
    cases (exec_of_isRecv_recv (by rw [hphase]; rfl) s.opl.c s.opl.len s.opl.timeout).symm.trans hexec
    exact recvIteration_inv rfl s.opl.len h

/-! ### The acceptance -/

theorem latch_inv {s : State} (h : Inv s) (hp : s.phase = .idle) {x : Transaction} (hw : x.wf = true) :
    Inv (latch x s) := by
  have hfits : x.payload.length ≤ 65535 := of_decide_eq_true hw
  exact inv_of_idle (s := latch x s) ⟨h.rdbuf_le, hfits, h.pbuf_fits, h.txlog_sizes⟩ hp (h.rsp_none (by simp [hp]))
    (h.txb_nil (by simp [hp, Phase.isWrite])) (h.rto_default (by simp [hp, Phase.isRecv]))

/-- What the invariant says of IDLE, out of reset. -/
structure Ready (s : State) : Prop where
  bounded : Bounded s
  rst_false : s.rst = false
  rsp_none : s.rsp = none
  txb_nil : s.txb = []
  rto_eq : s.rto = s.cfg.defaultRto

theorem Inv.ready {s : State} (h : Inv s) (hr : s.rst = false) (hp : s.phase = .idle) : Ready s :=
  ⟨h.bounded, hr, h.rsp_none (by simp [hp]), h.txb_nil (by simp [hp, Phase.isWrite]),
    h.rto_default (by simp [hp, Phase.isRecv])⟩

section
variable {s : State} (h : Ready s)
include h

theorem Ready.respond (st : Status) (b : Byte) (n : Count) (pl : List Byte) : Inv (respond st b n pl s) :=
  inv_respond h.bounded h.rst_false h.rto_eq st b n pl

theorem Ready.offer {p : Phase} {l : List Byte} (hp : p.isWrite = true) (hl : l = pendingWrite (offerWrite p l s))
    (hne : l ≠ []) (hfits : p = .sendWr → admissible s.cfg s.opl.payload.length s.opl.c = true)
    (hop : phaseOp p = some s.opl.op) : Inv (offerWrite p l s) := by
  obtain ⟨⟨hle, hopl, hpbuf, hlog⟩, hr, hrsp, _, hrto⟩ := h
  exact inv_of_write (s := offerWrite p l s) ⟨hle, hopl, hpbuf, hlog⟩ hp hr hrsp hrto hl hne hfits hop

theorem sendStart_inv {c : Bool} {cmd : Byte} {p : List Byte} (hl : Latched (.send c cmd p) s) :
    Inv (sendStart c cmd p s) := by
  rcases sendStart_cases c cmd p s with ⟨_, _, hstart⟩ | ⟨_, _, hstart⟩ | ⟨_, hfits, hstart⟩ <;> rw [hstart]
  · exact h.respond ..
  · exact h.respond ..
  · apply h.offer rfl
    · simp [pendingWrite, hl, Opl.ofTransaction, encode, descC_mkDesc, descCmd_mkDesc]
    · simp [frameBytes]
    · simpa [hl, Opl.ofTransaction, encode, descC_mkDesc] using hfits
    · rw [opl_op_of_latched hl]
      rfl

theorem rawhcStart_inv {cmd : Byte} (hl : Latched (.rawhc cmd) s) : Inv (rawhcStart cmd s) := by
  apply h.offer rfl
  · simp [pendingWrite, hl, Opl.ofTransaction, encode, descCmd_mkDesc]
  · simp
  · simp
  · rw [opl_op_of_latched hl]
    rfl

theorem rawdatStart_inv {d : List Byte} (hl : Latched (.rawdat d) s) : Inv (rawdatStart d s) := by
  rcases eq_or_ne d [] with rfl | hd
  · exact h.respond ..
  · rw [rawdatStart_of_ne_nil hd]
    apply h.offer rfl
    · simp [pendingWrite, hl, Opl.ofTransaction, encode]
    · exact hd
    · simp
    · rw [opl_op_of_latched hl]
      rfl

theorem rawckStart_inv (hl : Latched .rawck s) : Inv (rawckStart s) := by
  apply h.offer rfl
  · simp [pendingWrite]
  · simp
  · simp
  · rw [opl_op_of_latched hl]
    rfl

theorem syncStart_inv {timeout : Word} (hl : Latched (.sync timeout) s) : Inv (syncStart s) := by
  rcases syncStart_cases s with ⟨_, _, hstart⟩ | ⟨_, hstart⟩ <;> rw [hstart]
  · exact h.respond ..
  · obtain ⟨⟨hle, hopl, hpbuf, hlog⟩, hr, hrsp, htxb, hrto⟩ := h
    have htimeout : s.opl.timeout ≠ none := by simp [hl, Opl.ofTransaction, encode]
    exact inv_of_syncScan (s := { s with disc := 0, elapsed := 0, phase := .syncScan }) ⟨hle, hopl, hpbuf, hlog⟩ rfl hr
      hrsp htxb hrto (opl_op_of_latched hl) htimeout

theorem recvStart_inv {c : Bool} {len : Count} {timeout : Option Word} (hl : Latched (.recv c len timeout) s) :
    Inv (recvStart timeout s) := by
  obtain ⟨⟨hle, hopl, hpbuf, hlog⟩, hr, hrsp, htxb, _⟩ := h
  have hrecv : Receiving { s with rto := timeout.getD s.rto } :=
    ⟨⟨hle, hopl, hpbuf, hlog⟩, hr, hrsp, htxb, opl_op_of_latched hl⟩
  have hstart : recvStart timeout s = startRead 1 { s with rto := timeout.getD s.rto, phase := .recvHdr } := by
    cases timeout <;> rfl
  rw [hstart]
  apply inv_of_recv (hrecv.start 1 .recvHdr s.rcmd s.pcnt hpbuf)
  all_goals simp [Phase.isRecv]

theorem exec_inv_of_ready {i : Instr} {t : State} (hp : s.phase = .idle) (hl : Latched i s)
    (hexec : exec i s = .next t) : Inv t := by
  cases i with
  | send c cmd p => cases (exec_of_idle_send hp c cmd p).symm.trans hexec; exact sendStart_inv h hl
  | rawhc cmd => cases (exec_rawhc_offers hp).symm.trans hexec; exact rawhcStart_inv h hl
  | rawdat d => cases (exec_of_idle_rawdat hp d).symm.trans hexec; exact rawdatStart_inv h hl
  | rawck => cases (exec_rawck_offers hp).symm.trans hexec; exact rawckStart_inv h hl
  | sync timeout => cases (exec_of_idle_sync hp timeout).symm.trans hexec; exact syncStart_inv h hl
  | recv c len timeout => cases (exec_of_idle_recv hp c len timeout).symm.trans hexec; exact recvStart_inv h hl
  | cksum l => cases (exec_of_idle_cksum hp l).symm.trans hexec; exact h.respond ..

end

/-! ### Reset and the Host's take -/

theorem coreReset_inv {s : State} (h : ∀ w ∈ s.txlog, 1 ≤ w.length ∧ w.length ≤ 65535) : Inv (coreReset s) :=
  inv_of_idle ⟨Nat.zero_le _, Nat.zero_le _, Nat.zero_le _, h⟩ rfl rfl rfl rfl

theorem takeResponse_inv {s : State} (h : Inv s) (hp : s.phase = .resp) : Inv (takeResponse s) := by
  obtain ⟨r, hrsp⟩ := Option.ne_none_iff_exists'.mp (h.rsp_iff.mpr hp)
  rw [takeResponse_some hrsp]
  exact inv_of_idle ⟨h.rdbuf_le, h.opl_fits, h.pbuf_fits, h.txlog_sizes⟩ rfl rfl
    (h.txb_nil (by simp [hp, Phase.isWrite])) (h.rto_default (by simp [hp, Phase.isRecv]))

/-- The invariant does not read rst and the configure output in IDLE. -/
theorem Inv.of_idle_rst {s : State} (h : Inv s) (hp : s.phase = .idle) (b : Bool) (l : List Rate) :
    Inv { s with rst := b, configOut := l } :=
  inv_of_idle ⟨h.rdbuf_le, h.opl_fits, h.pbuf_fits, h.txlog_sizes⟩ hp (h.rsp_none (by simp [hp]))
    (h.txb_nil (by simp [hp, Phase.isWrite])) (h.rto_default (by simp [hp, Phase.isRecv]))

/-- Settles O46: reset leaves IDLE with nothing offered, held or buffered, under any configuration. -/
theorem resetSatisfiesTheInvariant : Obligations.ResetSatisfiesTheInvariant := by
  have hreset (c : Cfg) : Inv (State.resetWith c) :=
    inv_of_idle ⟨Nat.zero_le _, Nat.zero_le _, Nat.zero_le _, nofun⟩ rfl rfl rfl rfl
  exact ⟨hreset, hreset _⟩

/-- Every agent's step keeps the invariant. -/
theorem StepOutcome.inv {e : Event} {s t : State} (hstep : StepOutcome e s t) (h : Inv s) : Inv t := by
  cases hstep with
  | quiet q n c ht => subst ht; exact h.of_unread q n s.disc c s.sched
  | continues i _ hc he hexec =>
    rcases he with ⟨_, hwait⟩ | ⟨_, hwrite, _⟩
    · exact exec_inv_of_rxWait h hwait hc hexec
    · exact exec_inv_of_write h hwrite hc hexec
  | illegal x _ hr hp hw ht => subst ht; exact ((latch_inv h hp hw).ready hr hp).respond ..
  | accepts x i _ hr hp hw hi hexec =>
    have hlatched : Latched i (latch x s) := by rw [Latched, latch_opl, encode_of_decode hi]
    exact exec_inv_of_ready ((latch_inv h hp hw).ready hr hp) hp hlatched hexec
  | taken _ _ hp ht => subst ht; exact takeResponse_inv h hp
  | asserted _ ht => subst ht; exact (coreReset_inv h.txlog_sizes).of_idle_rst rfl true s.configOut
  | released _ _ ht =>
    subst ht
    exact (coreReset_inv (s := { s with cfg := s.cfgIn }) h.txlog_sizes).of_idle_rst rfl false _

/-- Settles O45: the schedule is not read, and the agent's step keeps the invariant. -/
theorem everyStepKeepsTheInvariant : Obligations.EveryStepKeepsTheInvariant := fun s _ h hstep =>
  (step_outcome hstep).inv (h.of_unread s.rxq s.elapsed s.disc s.cfgIn (nextEvent s).2)

end Sys2Proof.Machine

/-! PROOFS. The other read phases of RECV (R153, R157, R158, R159), and runs over a fixed schedule: RECV of a whole
frame (R162 to R164) and SYNC's scan (R136, R139, R142). -/

namespace Sys2Proof.Machine

/-! ### The header read (R153) -/

theorem exec_of_recvHdr_recv {s : State} (hp : s.phase = .recvHdr) (c : Bool) (len : Count) (timeout : Option Word) :
    exec (.recv c len timeout) s = .next (recvByte recvHeaderRead s) := by
  rw [exec_of_isRecv_recv (by rw [hp]; rfl), recvIteration, hp]

theorem recvHeaderRead_of_header {h : Byte} {s : State} (hh : h = s.cfg.hdr) :
    recvHeaderRead h s = startRead 1 { s with phase := .recvCmd } := if_neg (not_not.mpr hh)

theorem recvHeaderRead_of_other {h : Byte} {s : State} (hh : h ≠ s.cfg.hdr) :
    recvHeaderRead h s = finishRecv .noHeaderFound 0 0 [] s := if_pos hh

/-- Settles O32: the byte is handed on in the step that takes it, whatever it is. -/
theorem recvHeaderStep : Obligations.RecvHeaderStep := by
  intro c len timeout s hp hl hdn hbuf
  rw [exec_of_recvHdr_recv hp]
  refine ⟨fun rest hq => ?header, fun h rest hq hh => ?other, fun hq he => ?expiry, fun hq he => ?poll⟩
  case header =>
    rw [recvByte_of_cons _ hdn hbuf hq]
    exact congrArg _ (recvHeaderRead_of_header (s := afterByte s.cfg.hdr rest s) rfl)
  case other =>
    have hword : responseWord .noHeaderFound 6 0 0 = 0x16000000 := by decide
    rw [recvByte_of_cons _ hdn hbuf hq, recvHeaderRead_of_other (s := afterByte h rest s) hh,
      finishRecv_of_latched (s := afterByte h rest s) hl, hword]
    rfl
  case expiry => rw [recvByte_of_expired _ hq he, finishRecv_incomplete_of_latched hl]
  case poll => rw [recvByte_of_waiting _ hq he]

/-! ### The parameter read (R157) -/

theorem exec_of_recvPar_recv {s : State} (hp : s.phase = .recvPar) (c : Bool) (len : Count) (timeout : Option Word) :
    exec (.recv c len timeout) s = .next (recvBlock c s) := by
  rw [exec_of_isRecv_recv (by rw [hp]; rfl), recvIteration, hp]

section
variable {s : State} (c : Bool)

theorem recvBlock_of_more {b : Byte} {l : List Byte} (hq : s.rxq = b :: l) (hn : s.rdbuf.length + 1 < s.rdn.toNat) :
    recvBlock c s = { s with rxq := l, rdbuf := s.rdbuf ++ [b] } := by
  rw [recvBlock, readIteration_more hq hn.ne]

theorem recvBlock_of_last {b : Byte} {l : List Byte} (hq : s.rxq = b :: l) (hn : s.rdbuf.length + 1 = s.rdn.toNat) :
    recvBlock c s = recvParamsRead c (s.rdbuf ++ [b]) { s with rxq := l, rdbuf := s.rdbuf ++ [b] } := by
  rw [recvBlock, readIteration_last hq hn]

theorem recvBlock_of_expired (hq : s.rxq = []) (he : s.rto.toNat < s.elapsed.toNat) :
    recvBlock c s = finishRecv .incomplete 0 0 [] s := by
  rw [recvBlock, readIteration_nil hq, if_pos (expired_of_lt he)]
  rfl

theorem recvBlock_of_waiting (hq : s.rxq = []) (he : s.elapsed.toNat ≤ s.rto.toNat) : recvBlock c s = s := by
  rw [recvBlock, readIteration_nil hq, if_neg (not_expired_of_le he)]

end

/-- Settles O34: RDBUF is compared with RDN in the step that takes the byte, and the last byte goes on to PBUF. -/
theorem recvParameterStep : Obligations.RecvParameterStep := by
  intro c len timeout s hp hl _
  rw [exec_of_recvPar_recv hp]
  refine ⟨fun b rest hq hn => ?more, fun b rest hq hn hc => ?checksum, fun b rest hq hn hc => ?ok, fun hq he => ?expiry,
    fun hq he => ?poll⟩
  case more => rw [recvBlock_of_more c hq hn]
  case checksum =>
    rw [recvBlock_of_last c hq hn, hc, recvParamsRead_true]
    rfl
  case ok =>
    rw [recvBlock_of_last c hq hn, hc, recvParamsRead_false,
      finishRecv_of_latched (s := { s with rxq := rest, rdbuf := _, pbuf := _ }) hl]
  case expiry => rw [recvBlock_of_expired c hq he, finishRecv_incomplete_of_latched hl]
  case poll => rw [recvBlock_of_waiting c hq he]

/-! ### The checksum read (R158, R159) -/

theorem exec_of_recvCks_recv {s : State} (hp : s.phase = .recvCks) (c : Bool) (len : Count) (timeout : Option Word) :
    exec (.recv c len timeout) s = .next (recvByte recvCompare s) := by
  rw [exec_of_isRecv_recv (by rw [hp]; rfl), recvIteration, hp]

theorem recvCompare_of_eq {k : Byte} {s : State} (hk : k = frameChecksum s.cfg s.rcmd s.pbuf) :
    recvCompare k s = finishRecv .ok s.rcmd s.pcnt s.pbuf s := if_neg (not_not.mpr hk)

theorem recvCompare_of_ne {k : Byte} {s : State} (hk : k ≠ frameChecksum s.cfg s.rcmd s.pbuf) :
    recvCompare k s = finishRecv .checksumMismatch 0 0 [] s := if_pos hk

/-- Settles O35: the verdict is given on the byte taken; without a byte only the expiry ends the read. -/
theorem recvCompletesAtTheChecksum : Obligations.RecvCompletesAtTheChecksum := by
  intro c len timeout s hp hl hdn hbuf
  rw [exec_of_recvCks_recv hp]
  refine ⟨fun rest hq => ?equal, fun k rest hq hk => ?mismatch, fun hq he => ?expiry, fun hq he => ?poll⟩
  case equal =>
    have hok := recvCompare_of_eq (s := afterByte (fold (window s.cfg s.rcmd s.pbuf)) rest s) rfl
    rw [recvByte_of_cons _ hdn hbuf hq]
    exact congrArg _ (hok.trans (finishRecv_of_latched (s := afterByte _ rest s) hl ..))
  case mismatch =>
    have hword : responseWord .checksumMismatch 6 0 0 = 0x66000000 := by decide
    rw [recvByte_of_cons _ hdn hbuf hq, recvCompare_of_ne (s := afterByte k rest s) hk,
      finishRecv_of_latched (s := afterByte k rest s) hl, hword]
    rfl
  case expiry => rw [recvByte_of_expired _ hq he, finishRecv_incomplete_of_latched hl]
  case poll => rw [recvByte_of_waiting _ hq he]

/-! ### Runs of core steps and of Ticks -/

/-- `n` core steps lead from `s` to `t`, whatever is scheduled behind them. -/
inductive CoreRun : Nat → State → State → Prop
  | refl (s : State) : CoreRun 0 s s
  | step {n : Nat} {s t u : State} (h : ∀ es, stepCore (s.scheduled es) = .next (t.scheduled es))
      (hrun : CoreRun n t u) : CoreRun (n + 1) s u

theorem CoreRun.single {s t : State} (h : ∀ es, stepCore (s.scheduled es) = .next (t.scheduled es)) : CoreRun 1 s t :=
  .step h (.refl t)

theorem CoreRun.trans {n m : Nat} {s t u : State} (h : CoreRun n s t) (h' : CoreRun m t u) : CoreRun (n + m) s u := by
  induction h with
  | refl => rwa [Nat.zero_add]
  | step hstep _ ih =>
    rw [Nat.add_right_comm]
    exact .step hstep (ih h')

theorem step_core (s : State) (es : List Event) : step (s.scheduled (.core :: es)) = stepCore (s.scheduled es) := rfl

/-- With nothing scheduled the core moves. -/
theorem CoreRun.steps_nil {n : Nat} {s t : State} (h : CoreRun n s t) :
    steps n (s.scheduled []) = .next (t.scheduled []) := by
  induction h with
  | refl => rfl
  | step hstep _ ih => exact (steps_succ ((step_scheduled_nil _).trans (hstep []))).trans ih

theorem CoreRun.steps_replicate {n : Nat} {s t : State} (h : CoreRun n s t) (es : List Event) :
    steps n (s.scheduled (List.replicate n .core ++ es)) = .next (t.scheduled es) := by
  induction h with
  | refl => rfl
  | step hstep _ ih => exact (steps_succ ((step_core _ _).trans (hstep _))).trans ih

/-- A core step of a latched command in a wait on the RX queue is that command's. -/
theorem coreRun_one_of_exec {i : Instr} {s t : State} (hr : s.rst = false) (hl : Latched i s)
    (hp : s.phase.isRxWait = true) (hown : ownPhase i s.phase = true)
    (hexec : ∀ es, exec i (s.scheduled es) = .next (t.scheduled es)) : CoreRun 1 s t := by
  have hidle : s.phase ≠ .idle := by rintro h; simp [h, Phase.isRxWait] at hp
  refine .single fun es => ?_
  rw [stepCore_current (s := s.scheduled es) hr hp (current_of_latched (s := s.scheduled es) hl hidle hown), hexec]

/-- ELAPSED after `n` Ticks. -/
def tickCounts : Nat → Ticks → Ticks
  | 0, e => e
  | n + 1, e => tickCounts n (tickCount e)

theorem tickCounts_toNat (n : Nat) (e : Ticks) : (tickCounts n e).toNat = min (e.toNat + n) (2 ^ 33 - 1) := by
  induction n generalizing e with
  | zero =>
    have he := e.isLt
    rw [tickCounts]
    omega
  | succ n ih =>
    rw [tickCounts, ih, tickCount_toNat]
    omega

theorem steps_ticks {s : State} (hr : s.rst = false) (n : Nat) (es : List Event) :
    steps n (s.scheduled (List.replicate n .tick ++ es)) =
      .next ({ s with elapsed := tickCounts n s.elapsed }.scheduled es) := by
  induction n generalizing s with
  | zero => rfl
  | succ n ih => exact (steps_succ (step_tick hr _)).trans (ih (s := { s with elapsed := tickCount s.elapsed }) hr)

/-! ### RECV of a whole frame (R162 to R164) -/

/-- The state in which RECV's acceptance leaves the core. -/
def recvStarted (c : Bool) (len : Count) (timeout : Option Word) (s : State) : State :=
  { latch (encode (.recv c len timeout)) s with
    rto := timeout.getD s.rto, phase := .recvHdr, rdn := 1, rdbuf := [], elapsed := 0 }

/-- The state in which RECV has taken the header, with `l` left in the queue. -/
def headerTaken (l : List Byte) (s : State) : State :=
  { s with rxq := l, phase := .recvCmd, rdn := 1, rdbuf := [], elapsed := 0 }

/-- The state in which RECV has taken header, command `cmd` and parameters `p`, with `l` left in the queue. -/
def paramsTaken (cmd : Byte) (n : Count) (p l : List Byte) (s : State) : State :=
  { s with rxq := l, rcmd := cmd, pcnt := n, phase := .recvPar, rdn := n, rdbuf := p, elapsed := 0 }

/-- The count that RECV finds is `n`, under either length mode (R155), and LEN is legal (R101). -/
structure CountFound (cfg : Cfg) (len : Count) (cmd : Byte) (n : Nat) : Prop where
  declared : cfg.lenMode = .declared → len.toNat = n
  negotiated : cfg.lenMode = .negotiated → len = 0 ∧ (lookupCount cfg cmd).toNat = n

theorem CountFound.paramCount_toNat {cfg : Cfg} {len : Count} {cmd : Byte} {n : Nat} (h : CountFound cfg len cmd n) :
    (paramCount cfg cmd len).toNat = n := by
  unfold paramCount
  split
  · next hmode => exact (h.negotiated hmode).2
  · next hmode => exact h.declared hmode

theorem CountFound.paramCount_eq {cfg : Cfg} {len : Count} {cmd : Byte} {n : Nat} (h : CountFound cfg len cmd n) :
    paramCount cfg cmd len = BitVec.ofNat 16 n := by
  rw [← h.paramCount_toNat, BitVec.ofNat_toNat, BitVec.setWidth_eq]

theorem CountFound.recv_wf {cfg : Cfg} {len : Count} {cmd : Byte} {n : Nat} (h : CountFound cfg len cmd n) (c : Bool)
    (timeout : Option Word) : Instr.wf cfg.lenMode (.recv c len timeout) = true := by
  cases hmode : cfg.lenMode with
  | declared => rfl
  | negotiated => exact decide_eq_true (.inr (h.negotiated hmode).1)

theorem step_offer_recv {c : Bool} {len : Count} {timeout : Option Word} {s : State} (hr : s.rst = false)
    (hp : s.phase = .idle) (hw : Instr.wf s.cfg.lenMode (.recv c len timeout) = true) (es : List Event) :
    step (s.scheduled (.offer (encode (.recv c len timeout)) :: es)) =
      .next ((recvStarted c len timeout s).scheduled es) :=
  (step_offer_encode hr hp hw es).trans (recvStartsTheHeaderRead c len timeout _ hp)

theorem recvParamsRead_scheduled (c : Bool) (p : List Byte) (s : State) (es : List Event) :
    recvParamsRead c p (s.scheduled es) = (recvParamsRead c p s).scheduled es := by cases c <;> rfl

section
variable {c : Bool} {len : Count} {timeout : Option Word} {s : State} {rest : List Byte}

theorem coreRun_header (hr : s.rst = false) (hl : Latched (.recv c len timeout) s) (hp : s.phase = .recvHdr)
    (hdn : s.rdn = 1) (hbuf : s.rdbuf = []) (hq : s.rxq = s.cfg.hdr :: rest) :
    CoreRun 1 s (headerTaken rest s) :=
  coreRun_one_of_exec hr hl (by rw [hp]; rfl) (by rw [hp]; rfl) fun es =>
    (recvHeaderStep c len timeout (s.scheduled es) hp hl hdn hbuf).1 rest hq

/-- The parameter read takes the bytes it still wants, one a step, and the last step goes on with the block. -/
theorem coreRun_params (hr : s.rst = false) (hl : Latched (.recv c len timeout) s) (hp : s.phase = .recvPar)
    {p : List Byte} (hne : p ≠ []) (hn : s.rdbuf.length + p.length = s.rdn.toNat) (hq : s.rxq = p ++ rest) :
    CoreRun p.length s (recvParamsRead c (s.rdbuf ++ p) { s with rxq := rest, rdbuf := s.rdbuf ++ p }) := by
  induction p generalizing s with
  | nil => exact absurd rfl hne
  | cons b p ih =>
    have hexec (es : List Event) : exec (.recv c len timeout) (s.scheduled es) = .next (recvBlock c (s.scheduled es)) :=
      exec_of_recvPar_recv (s := s.scheduled es) hp c len timeout
    rw [List.length_cons] at hn
    rcases eq_or_ne p [] with rfl | hne
    · refine coreRun_one_of_exec hr hl (by rw [hp]; rfl) (by rw [hp]; rfl) fun es => ?_
      rw [hexec, recvBlock_of_last (s := s.scheduled es) c hq hn]
      exact congrArg _ (recvParamsRead_scheduled c _ { s with rxq := rest, rdbuf := s.rdbuf ++ [b] } es)
    · have hmore : s.rdbuf.length + 1 < s.rdn.toNat := by have := List.length_pos_iff.mpr hne; omega
      have hfirst : CoreRun 1 s { s with rxq := p ++ rest, rdbuf := s.rdbuf ++ [b] } := by
        refine coreRun_one_of_exec hr hl (by rw [hp]; rfl) (by rw [hp]; rfl) fun es => ?_
        rw [hexec, recvBlock_of_more (s := s.scheduled es) c hq hmore]
        rfl
      have hrest := ih (s := { s with rxq := p ++ rest, rdbuf := s.rdbuf ++ [b] }) hr hl hp hne
        (by simp only [List.length_append, List.length_singleton]; omega) rfl
      rw [List.length_cons, Nat.add_comm]
      simpa using hfirst.trans hrest

/-- The command byte and the parameters, of which there may be none (R58). -/
theorem coreRun_command {cmd : Byte} {n : Count} {p : List Byte} (hr : s.rst = false)
    (hl : Latched (.recv c len timeout) s) (hp : s.phase = .recvCmd) (hdn : s.rdn = 1) (hbuf : s.rdbuf = [])
    (hq : s.rxq = cmd :: (p ++ rest)) (hn : paramCount s.cfg cmd len = n) (hcount : n.toNat = p.length)
    (hsize : 2 + n.toNat + c.toNat ≤ s.cfg.maxf.toNat) :
    CoreRun (1 + p.length) s (recvParamsRead c p (paramsTaken cmd n p rest s)) := by
  subst hn
  have hexec (es : List Event) : exec (.recv c len timeout) (s.scheduled es) =
      .next (recvCommandRead c len cmd (afterByte cmd (p ++ rest) (s.scheduled es))) := by
    rw [exec_of_recvCmd_recv (s := s.scheduled es) hp, recvByte_of_cons (s := s.scheduled es) _ hdn hbuf hq]
  rcases eq_or_ne p [] with rfl | hne
  · have hzero : paramCount s.cfg cmd len = 0 := BitVec.eq_of_toNat_eq hcount
    refine coreRun_one_of_exec hr hl (by rw [hp]; rfl) (by rw [hp]; rfl) fun es => ?_
    rw [hexec, recvCommandRead_of_no_params (s := afterByte cmd ([] ++ rest) (s.scheduled es)) hsize hzero, hzero]
    exact congrArg _ (recvParamsRead_scheduled c [] (paramsTaken cmd 0 [] rest s) es)
  · have hpos : paramCount s.cfg cmd len ≠ 0 := by
      intro hzero
      rw [hzero] at hcount
      exact hne (List.length_eq_zero_iff.mp hcount.symm)
    have hfirst : CoreRun 1 s (paramsTaken cmd (paramCount s.cfg cmd len) [] (p ++ rest) s) := by
      refine coreRun_one_of_exec hr hl (by rw [hp]; rfl) (by rw [hp]; rfl) fun es => ?_
      rw [hexec, recvCommandRead_of_params (s := afterByte cmd (p ++ rest) (s.scheduled es)) hsize hpos]
      rfl
    have hrest := coreRun_params (s := paramsTaken cmd (paramCount s.cfg cmd len) [] (p ++ rest) s) hr hl rfl hne
      ((Nat.zero_add _).trans hcount.symm) rfl
    exact hfirst.trans hrest

end

/-- RECV, from its acceptance to the end of the parameters: one step a byte. -/
theorem coreRun_recvStarted {c : Bool} {len : Count} {timeout : Option Word} {s : State} {cmd : Byte}
    {p rest : List Byte} (hr : s.rst = false) (hq : s.rxq = s.cfg.hdr :: cmd :: (p ++ rest))
    (hcount : CountFound s.cfg len cmd p.length) (hsize : 2 + p.length + c.toNat ≤ s.cfg.maxf.toNat) :
    CoreRun (2 + p.length) (recvStarted c len timeout s)
      (recvParamsRead c p (paramsTaken cmd (BitVec.ofNat 16 p.length) p rest (recvStarted c len timeout s))) := by
  have hlen : (BitVec.ofNat 16 p.length).toNat = p.length := by rw [← hcount.paramCount_eq, hcount.paramCount_toNat]
  have hheader := coreRun_header (s := recvStarted c len timeout s) hr rfl rfl rfl rfl hq
  have hcommand := coreRun_command (s := headerTaken (cmd :: (p ++ rest)) (recvStarted c len timeout s)) hr rfl rfl rfl
    rfl rfl hcount.paramCount_eq hlen (by rwa [hlen])
  rw [show 2 + p.length = 1 + (1 + p.length) by omega]
  exact hheader.trans hcommand

/-! ### The checksum byte of the frame received -/

/-- The state in which RECV.C waits for the checksum byte, with `l` left in the queue. -/
def checksumAwaited (cmd : Byte) (p l : List Byte) (s : State) : State :=
  startRead 1 { paramsTaken cmd (BitVec.ofNat 16 p.length) p l s with pbuf := p, phase := .recvCks }

theorem recvCompare_scheduled (k : Byte) (s : State) (es : List Event) :
    recvCompare k (s.scheduled es) = (recvCompare k s).scheduled es := by
  rcases recvCompare_cases k s with ⟨hk, h⟩ | ⟨hk, h⟩ <;> rw [h]
  · exact recvCompare_of_ne (s := s.scheduled es) hk
  · exact recvCompare_of_eq (s := s.scheduled es) hk

@[simp] theorem recvCompare_phase (k : Byte) (s : State) : (recvCompare k s).phase = .resp := by
  rcases recvCompare_cases k s with ⟨_, h⟩ | ⟨_, h⟩ <;> simp [h]

theorem coreRun_checksum {c : Bool} {len : Count} {timeout : Option Word} {s : State} {k : Byte} {rest : List Byte}
    (hr : s.rst = false) (hl : Latched (.recv c len timeout) s) (hp : s.phase = .recvCks) (hdn : s.rdn = 1)
    (hbuf : s.rdbuf = []) (hq : s.rxq = k :: rest) : CoreRun 1 s (recvCompare k (afterByte k rest s)) :=
  coreRun_one_of_exec hr hl (by rw [hp]; rfl) (by rw [hp]; rfl) fun es => by
    rw [exec_of_recvCks_recv (s := s.scheduled es) hp, recvByte_of_cons (s := s.scheduled es) _ hdn hbuf hq]
    exact congrArg _ (recvCompare_scheduled k (afterByte k rest s) es)

section
variable {cmd : Byte} {p rest : List Byte} {len : Count} {s : State}

/-- RECV.C of header, command, parameters and one more byte `k` gives its verdict on `k` (R158, R159). -/
theorem steps_recv_verdict {k : Byte} (hr : s.rst = false) (hp : s.phase = .idle)
    (hq : s.rxq = s.cfg.hdr :: cmd :: (p ++ k :: rest)) (hcount : CountFound s.cfg len cmd p.length)
    (hsize : 3 + p.length ≤ s.cfg.maxf.toNat) :
    ∃ u, steps (4 + p.length) (s.scheduled [.offer (encode (.recv true len none))]) = .next u ∧
      u.phase = .resp ∧ u.rxq = rest ∧
      (k ≠ fold (window s.cfg cmd p) → u.rsp = some ⟨0x66000000, []⟩) ∧
      (k = fold (window s.cfg cmd p) → u.rsp = some ⟨responseWord .ok 6 cmd (BitVec.ofNat 16 p.length), p⟩) := by
  have hoffer := step_offer_recv hr hp (hcount.recv_wf true none) []
  have hparams := coreRun_recvStarted (c := true) (timeout := none) hr hq hcount (by rw [Bool.toNat_true]; omega)
  have hcks := coreRun_checksum (s := checksumAwaited cmd p (k :: rest) (recvStarted true len none s)) hr rfl rfl rfl
    rfl rfl
  have hlatched : Latched (.recv true len none)
      (afterByte k rest (checksumAwaited cmd p (k :: rest) (recvStarted true len none s))) := rfl
  rw [show 4 + p.length = 2 + p.length + 1 + 1 by omega]
  refine ⟨_, (steps_succ hoffer).trans (hparams.trans hcks).steps_nil, recvCompare_phase .., recvCompare_rxq .., ?_, ?_⟩
  · intro hk
    have hword : responseWord .checksumMismatch 6 0 0 = 0x66000000 := by decide
    rw [scheduled_rsp, recvCompare_of_ne hk, finishRecv_of_latched hlatched, hword]
  · intro hk
    rw [scheduled_rsp, recvCompare_of_eq hk, finishRecv_of_latched hlatched]
    rfl

/-- A RECV without a checksum answers in the step that takes the last byte of the frame (R157, R159). -/
theorem steps_recv_plain (hr : s.rst = false) (hp : s.phase = .idle)
    (hq : s.rxq = s.cfg.hdr :: cmd :: (p ++ rest)) (hcount : CountFound s.cfg len cmd p.length)
    (hsize : 2 + p.length ≤ s.cfg.maxf.toNat) :
    ∃ u, steps (3 + p.length) (s.scheduled [.offer (encode (.recv false len none))]) = .next u ∧
      u.phase = .resp ∧ u.rxq = rest ∧ u.rsp = some ⟨responseWord .ok 6 cmd (BitVec.ofNat 16 p.length), p⟩ := by
  have hoffer := step_offer_recv hr hp (hcount.recv_wf false none) []
  have hparams := coreRun_recvStarted (c := false) (timeout := none) hr hq hcount (by rwa [Bool.toNat_false])
  have hlatched : Latched (.recv false len none)
      { paramsTaken cmd (BitVec.ofNat 16 p.length) p rest (recvStarted false len none s) with pbuf := p } := rfl
  rw [show 3 + p.length = 2 + p.length + 1 by omega]
  refine ⟨_, (steps_succ hoffer).trans hparams.steps_nil, rfl, rfl, ?_⟩
  rw [scheduled_rsp, recvParamsRead_false, finishRecv_of_latched hlatched]
  rfl

end

/-- Settles O38: with a checksum the byte behind the parameters is the one the verdict asks for. -/
theorem receiveOfASentFrameReturnsIt : Obligations.ReceiveOfASentFrameReturnsIt := by
  intro c cmd p rest len s hr hp hq hdeclared hnegotiated hsize
  have hcount : CountFound s.cfg len cmd p.length := ⟨hdeclared, hnegotiated⟩
  cases c with
  | false =>
    rw [frameBytes_false] at hq
    exact steps_recv_plain hr hp (by simpa using hq) hcount hsize
  | true =>
    rw [frameBytes_true] at hq
    obtain ⟨u, hu, hphase, hrest, _, hok⟩ :=
      steps_recv_verdict (rest := rest) hr hp (by simpa using hq) hcount (by rw [Bool.toNat_true] at hsize; omega)
    refine ⟨u, ?_, hphase, hrest, hok rfl⟩
    rwa [Bool.toNat_true, show 3 + p.length + 1 = 4 + p.length by omega]

/-! ### One changed byte (R164) -/

theorem fold_window_ne_of_param (cfg : Cfg) (cmd : Byte) (a l : List Byte) {x y : Byte} (h : x ≠ y) :
    fold (window cfg cmd (a ++ x :: l)) ≠ fold (window cfg cmd (a ++ y :: l)) := by
  rw [window_eq_append cfg cmd (a ++ x :: l), window_eq_append cfg cmd (a ++ y :: l), ← List.append_assoc,
    ← List.append_assoc]
  exact fold_ne_of_one_changed _ l h

theorem fold_window_ne_of_cmd (cfg : Cfg) (l : List Byte) {cmd cmd' : Byte} (h : cmd ≠ cmd') :
    fold (window cfg cmd l) ≠ fold (window cfg cmd' l) := by
  rw [window, window, List.append_assoc, List.append_assoc]
  exact fold_ne_of_one_changed _ l h

/-- A checksummed frame with one byte after the header changed has a command, as many parameters, and a last byte that
is not their checksum: the byte changed is the command, a parameter or the checksum. -/
theorem changedFrame_eq {cfg : Cfg} {cmd x y : Byte} {p pre post : List Byte}
    (h : frameBytes cfg true cmd p = pre ++ x :: post) (hpre : pre ≠ []) (hxy : x ≠ y) :
    ∃ cmd' p' k, pre ++ y :: post = cfg.hdr :: cmd' :: (p' ++ [k]) ∧ p'.length = p.length ∧
      k ≠ fold (window cfg cmd' p') := by
  obtain ⟨b, pre, rfl⟩ := List.exists_cons_of_ne_nil hpre
  rw [frameBytes_true, frameChecksum] at h
  simp only [List.cons_append, List.nil_append, List.cons.injEq] at h
  obtain ⟨rfl, h⟩ := h
  cases pre with
  | nil =>
    simp only [List.nil_append, List.cons.injEq] at h
    obtain ⟨rfl, rfl⟩ := h
    exact ⟨y, p, _, rfl, rfl, fold_window_ne_of_cmd cfg p hxy⟩
  | cons d pre =>
    simp only [List.cons_append, List.cons.injEq] at h
    obtain ⟨rfl, h⟩ := h
    rcases List.eq_nil_or_concat post with rfl | ⟨post, z, rfl⟩
    · obtain ⟨rfl, hx⟩ := List.append_inj' h rfl
      obtain rfl := List.singleton_inj.mp hx
      exact ⟨cmd, p, y, rfl, rfl, hxy.symm⟩
    · rw [List.concat_eq_append, ← List.cons_append, ← List.append_assoc] at h
      obtain ⟨rfl, hz⟩ := List.append_inj' h rfl
      obtain rfl := List.singleton_inj.mp hz
      exact ⟨cmd, pre ++ y :: post, _, by simp, by simp, fold_window_ne_of_param cfg cmd pre post hxy⟩

/-- Settles O39: the bytes received are a command, parameters and a byte `k` in every part; on a changed frame the
fold of the first two cannot be `k`. -/
theorem receiveVerdictIsTheChecksumComparison : Obligations.ReceiveVerdictIsTheChecksumComparison := by
  refine ⟨?verdict, fun cfg cmd cmd' x y a l => ⟨?parameter, ?command⟩, ?changed⟩
  case verdict =>
    intro cmd k p rest len s hr hp hq hdeclared hnegotiated hsize
    exact steps_recv_verdict hr hp (by simpa using hq) ⟨hdeclared, hnegotiated⟩ hsize
  case parameter => exact fold_window_ne_of_param cfg cmd a l
  case command => exact fold_window_ne_of_cmd cfg l
  case changed =>
    intro cmd x y p pre post rest len s hr hp hframe hpre hxy hq hdeclared hnegotiated hsize
    obtain ⟨cmd', p', k, hreceived, hlen, hk⟩ := changedFrame_eq hframe hpre hxy
    rw [hreceived] at hq hnegotiated
    rw [← hlen] at hdeclared hnegotiated hsize ⊢
    have hcount : CountFound s.cfg len cmd' p'.length :=
      ⟨hdeclared, fun hmode => (hnegotiated hmode).imp_right fun hlookup => hlookup cmd' rfl⟩
    obtain ⟨u, hu, hphase, hrest, hmismatch, _⟩ :=
      steps_recv_verdict (rest := rest) hr hp (by simpa using hq) hcount hsize
    exact ⟨u, hu, hphase, hrest, hmismatch hk⟩

/-! ### A checksum byte that never comes (R162) -/

theorem coreRun_checksum_expired {c : Bool} {len : Count} {timeout : Option Word} {s : State} (hr : s.rst = false)
    (hl : Latched (.recv c len timeout) s) (hp : s.phase = .recvCks) (hdn : s.rdn = 1) (hbuf : s.rdbuf = [])
    (hq : s.rxq = []) (he : s.rto.toNat < s.elapsed.toNat) :
    CoreRun 1 s { s with rto := s.cfg.defaultRto, rsp := some ⟨0x56000000, []⟩, txb := [], phase := .resp } :=
  coreRun_one_of_exec hr hl (by rw [hp]; rfl) (by rw [hp]; rfl) fun es => by
    obtain ⟨_, _, hexpired, _⟩ := recvCompletesAtTheChecksum c len timeout (s.scheduled es) hp hl hdn hbuf
    exact hexpired hq he

/-- A wait that starts with ELAPSED = 0 has expired after one Tick more than its limit (R29). -/
theorem lt_tickCounts (limit : Word) : limit.toNat < (tickCounts (limit.toNat + 1) 0).toNat := by
  have hlimit := limit.isLt
  rw [tickCounts_toNat, show (0 : Ticks).toNat = 0 from rfl]
  omega

/-- Settles O40: the checksum read starts with ELAPSED = 0, so RTO + 1 Ticks expire it. -/
theorem truncatedFrameIsIncomplete : Obligations.TruncatedFrameIsIncomplete := by
  intro cmd p len limit s hr hp hq hdeclared hnegotiated hsize
  have hcount : CountFound s.cfg len cmd p.length := ⟨hdeclared, hnegotiated⟩
  have hq : s.rxq = s.cfg.hdr :: cmd :: (p ++ []) := by simpa using hq
  have hoffer : steps 1 _ = _ := steps_succ (step_offer_recv (timeout := some limit) hr hp (hcount.recv_wf true _)
    (List.replicate (2 + p.length) .core ++ (List.replicate (limit.toNat + 1) .tick ++ [.core])))
  have hparams := (coreRun_recvStarted (c := true) (timeout := some limit) hr hq hcount
    (by rw [Bool.toNat_true]; omega)).steps_replicate (List.replicate (limit.toNat + 1) .tick ++ [.core])
  have hticks := steps_ticks (s := checksumAwaited cmd p [] (recvStarted true len (some limit) s)) hr (limit.toNat + 1)
    [.core]
  have hexpired := (coreRun_checksum_expired (s := { checksumAwaited cmd p [] (recvStarted true len (some limit) s) with
    elapsed := tickCounts (limit.toNat + 1) 0 }) hr rfl rfl rfl rfl rfl (lt_tickCounts limit)).steps_replicate []
  rw [List.append_assoc]
  have hrun := (steps_add ((steps_add ((steps_add hoffer).trans hparams)).trans hticks)).trans hexpired
  exact ⟨_, hrun, rfl, rfl, rfl, rfl⟩

/-! ### SYNC on an idle link (R136, R142) -/

/-- The state in which SYNC's acceptance leaves the core. -/
def syncStarted (timeout : Word) (s : State) : State :=
  { latch (encode (.sync timeout)) s with disc := 0, elapsed := 0, phase := .syncScan }

theorem step_offer_sync {timeout : Word} {s : State} (hr : s.rst = false) (hp : s.phase = .idle)
    (hstrict : s.cfg.syncStrict = false) (es : List Event) :
    step (s.scheduled (.offer (encode (.sync timeout)) :: es)) = .next ((syncStarted timeout s).scheduled es) := by
  obtain ⟨hstart, _⟩ := syncStartsTheScan
  exact (step_offer_encode hr hp rfl es).trans (hstart timeout _ hp (.inl hstrict))

section
variable {timeout : Word} {s : State} (hr : s.rst = false) (hl : Latched (.sync timeout) s) (hp : s.phase = .syncScan)
include hr hl hp

theorem coreRun_scan {t : State} (hscan : ∀ es, exec (.sync timeout) (s.scheduled es) = .next (t.scheduled es)) :
    CoreRun 1 s t := coreRun_one_of_exec hr hl (by rw [hp]; rfl) (by rw [hp]; rfl) hscan

theorem coreRun_scan_header (hhdr : s.rxq.head? = some s.cfg.hdr) :
    CoreRun 1 s { s with rsp := some ⟨responseWord .ok 5 0 s.disc, []⟩, txb := [], phase := .resp } :=
  coreRun_scan hr hl hp fun es => by
    obtain ⟨hheader, _⟩ := scanStepTestsInOrder timeout (s.scheduled es) hp hl
    exact hheader hhdr

theorem coreRun_scan_expired (hq : s.rxq = []) (he : timeout.toNat < s.elapsed.toNat) :
    CoreRun 1 s { s with rsp := some ⟨0x15000000, []⟩, txb := [], phase := .resp } :=
  coreRun_scan hr hl hp fun es => by
    obtain ⟨_, hexpired, _⟩ := scanStepTestsInOrder timeout (s.scheduled es) hp hl
    exact hexpired (by simp [hq]) he

theorem coreRun_scan_poll (hq : s.rxq = []) (he : s.elapsed.toNat ≤ timeout.toNat) : CoreRun 1 s s :=
  coreRun_scan hr hl hp fun es => by
    obtain ⟨_, _, _, hpoll⟩ := scanStepTestsInOrder timeout (s.scheduled es) hp hl
    exact hpoll hq he

theorem coreRun_scan_discard {b : Byte} {rest : List Byte} (hq : s.rxq = b :: rest) (hb : b ≠ s.cfg.hdr)
    (he : s.elapsed.toNat ≤ timeout.toNat) : CoreRun 1 s { s with rxq := rest, disc := discardCount s.disc } :=
  coreRun_scan hr hl hp fun es => by
    rw [exec_of_scan_sync (s := s.scheduled es) hp,
      syncIteration_of_waiting (s := s.scheduled es) (by simpa [hq] using hb) he,
      syncDiscard_cons (s := s.scheduled es) hq]
    rfl

end

/-- Settles O29: the Ticks of the scan alone move ELAPSED, which the core's step compares with T. -/
theorem syncExpiresAfterExactlyMoreThanTTicks : Obligations.SyncExpiresAfterExactlyMoreThanTTicks := by
  intro timeout s hr hp hstrict hq
  have hrun (n : Nat) :
      steps (n + 1) (s.scheduled (.offer (encode (.sync timeout)) :: (List.replicate n .tick ++ [.core]))) =
        .next ({ syncStarted timeout s with elapsed := tickCounts n 0 }.scheduled [.core]) :=
    (steps_succ (step_offer_sync hr hp hstrict _)).trans (steps_ticks (s := syncStarted timeout s) hr n [.core])
  refine ⟨fun n hn => ?scanning, ?expired⟩
  case scanning =>
    have helapsed : (tickCounts n 0).toNat = n := by
      have htimeout := timeout.isLt
      rw [tickCounts_toNat, show (0 : Ticks).toNat = 0 from rfl]
      omega
    have hpoll := (coreRun_scan_poll (s := { syncStarted timeout s with elapsed := tickCounts n 0 }) hr rfl rfl hq
      (helapsed.trans_le hn)).steps_replicate []
    exact ⟨_, (steps_add (hrun n)).trans hpoll, rfl, helapsed⟩
  case expired =>
    have hexpired := (coreRun_scan_expired
      (s := { syncStarted timeout s with elapsed := tickCounts (timeout.toNat + 1) 0 }) hr rfl rfl hq
      (lt_tickCounts timeout)).steps_replicate []
    exact ⟨_, (steps_add (hrun (timeout.toNat + 1))).trans hexpired, rfl, rfl, hq⟩

/-! ### SYNC on noise before a header (R139) -/

/-- DISC after `n` discards. -/
def discardCounts : Nat → Count → Count
  | 0, d => d
  | n + 1, d => discardCounts n (discardCount d)

theorem discardCounts_toNat (n : Nat) (d : Count) : (discardCounts n d).toNat = min (d.toNat + n) 65535 := by
  induction n generalizing d with
  | zero =>
    have hd := d.isLt
    rw [discardCounts]
    omega
  | succ n ih =>
    rw [discardCounts, ih, discardCount_toNat]
    omega

/-- The scan discards the bytes before the first header, one a step. -/
theorem coreRun_scan_noise {timeout : Word} {noise rest : List Byte} {s : State} (hr : s.rst = false)
    (hl : Latched (.sync timeout) s) (hp : s.phase = .syncScan) (hq : s.rxq = noise ++ rest)
    (hnoise : s.cfg.hdr ∉ noise) (he : s.elapsed.toNat ≤ timeout.toNat) :
    CoreRun noise.length s { s with rxq := rest, disc := discardCounts noise.length s.disc } := by
  induction noise generalizing s with
  | nil =>
    obtain rfl : s.rxq = rest := hq
    exact .refl s
  | cons b noise ih =>
    obtain ⟨hb, hnoise⟩ := not_or.mp (mt List.mem_cons.mpr hnoise)
    have hdiscard := coreRun_scan_discard hr hl hp hq (Ne.symm hb) he
    have hrest := ih (s := { s with rxq := noise ++ rest, disc := discardCount s.disc }) hr hl hp rfl hnoise he
    have hrun := hdiscard.trans hrest
    rw [Nat.add_comm 1] at hrun
    exact hrun

/-- Settles O30: by induction on the noise, whose bytes the third test of the scan takes; then the header ends it. -/
theorem syncDiscardsExactlyThePrefix : Obligations.SyncDiscardsExactlyThePrefix := by
  intro timeout s noise rest hr hp hstrict hq hnoise
  have hoffer := step_offer_sync (timeout := timeout) hr hp hstrict []
  have hdiscards := coreRun_scan_noise (timeout := timeout) (s := syncStarted timeout s) hr rfl rfl hq hnoise
    (Nat.zero_le _)
  have hheader := coreRun_scan_header (timeout := timeout) (s := { syncStarted timeout s with
    rxq := s.cfg.hdr :: rest, disc := discardCounts noise.length 0 }) hr rfl rfl rfl
  have hcount : discardCounts noise.length 0 = BitVec.ofNat 16 (min noise.length 65535) := by
    apply BitVec.eq_of_toNat_eq
    rw [discardCounts_toNat, BitVec.toNat_ofNat, show (0 : Count).toNat = 0 from rfl]
    omega
  refine ⟨_, (steps_succ hoffer).trans (hdiscards.trans hheader).steps_nil, rfl, rfl, ?_⟩
  rw [← hcount]
  rfl

end Sys2Proof.Machine

/-! PROOFS. The OPL that IDLE holds is not read, and an old PBUF is read by no step before a RECV has written it (R34,
R38, R45). -/

namespace Sys2Proof.Machine

/-! ### PBUF in the meanings (R38) -/

/-- The state with another PBUF. -/
def withPbuf (p : List Byte) (s : State) : State := { s with pbuf := p }

/-- From `s` an agent's step leads to `t`, and from `s` with PBUF `p` to `t'`: then PBUF was written, or it was passed
on to a phase that does not read it. -/
def PbufUnread (p : List Byte) (s t t' : State) : Prop :=
  t' = t ∨ (t' = withPbuf p t ∧ t.pbuf = s.pbuf ∧ t.phase ≠ .recvCks)

theorem finishRecv_unread (p : List Byte) (st : Status) (b : Byte) (n : Count) (pl : List Byte) (s : State) :
    PbufUnread p s (finishRecv st b n pl s) (finishRecv st b n pl (withPbuf p s)) := .inr ⟨rfl, rfl, by simp⟩

theorem recvHeaderRead_unread (p : List Byte) (h : Byte) (s : State) :
    PbufUnread p s (recvHeaderRead h s) (recvHeaderRead h (withPbuf p s)) := by
  by_cases hh : h = s.cfg.hdr
  · rw [recvHeaderRead_of_header hh, recvHeaderRead_of_header (s := withPbuf p s) hh]
    exact .inr ⟨rfl, rfl, by simp⟩
  · rw [recvHeaderRead_of_other hh, recvHeaderRead_of_other (s := withPbuf p s) hh]
    exact finishRecv_unread ..

/-- The end of the parameter read writes PBUF. -/
theorem recvParamsRead_withPbuf (c : Bool) (l p : List Byte) (s : State) :
    recvParamsRead c l (withPbuf p s) = recvParamsRead c l s := by cases c <;> rfl

theorem recvCommandRead_of_not_admissible {c : Bool} {len : Count} {cb : Byte} {s : State}
    (h : admissible s.cfg (paramCount s.cfg cb len).toNat c = false) :
    recvCommandRead c len cb s =
      finishRecv .frameTooLarge 0 0 [] { s with rcmd := cb, pcnt := paramCount s.cfg cb len } := by
  rcases recvCommandRead_cases c len cb s with ⟨_, hread⟩ | ⟨hfits, _⟩ | ⟨hfits, _⟩
  · exact hread
  · simp [h] at hfits
  · simp [h] at hfits

theorem recvCommandRead_unread (p : List Byte) (c : Bool) (len : Count) (cb : Byte) (s : State) :
    PbufUnread p s (recvCommandRead c len cb s) (recvCommandRead c len cb (withPbuf p s)) := by
  cases hfits : admissible s.cfg (paramCount s.cfg cb len).toNat c with
  | false =>
    rw [recvCommandRead_of_not_admissible hfits, recvCommandRead_of_not_admissible (s := withPbuf p s) hfits]
    exact .inr ⟨rfl, rfl, by simp⟩
  | true =>
    have hsize := (admissible_iff ..).mp hfits
    by_cases hzero : paramCount s.cfg cb len = 0
    · rw [recvCommandRead_of_no_params hsize hzero, recvCommandRead_of_no_params (s := withPbuf p s) hsize hzero]
      exact .inl (recvParamsRead_withPbuf c [] p (startRead 0 { s with rcmd := cb, pcnt := 0, phase := .recvPar }))
    · rw [recvCommandRead_of_params hsize hzero, recvCommandRead_of_params (s := withPbuf p s) hsize hzero]
      exact .inr ⟨rfl, rfl, by simp⟩

/-- What a read came to, with its state changed by `f`. -/
def mapRead (f : State → State) : ReadResult → ReadResult
  | .complete l s => .complete l (f s)
  | .timedOut s => .timedOut (f s)
  | .waiting s => .waiting (f s)

/-- A read neither reads nor writes PBUF. -/
theorem readIteration_withPbuf (p : List Byte) (s : State) :
    readIteration (withPbuf p s) = mapRead (withPbuf p) (readIteration s) := by
  rcases readIteration_cases s with ⟨b, l, hq, hlast, h⟩ | ⟨b, l, hq, hmore, h⟩ | ⟨hq, he, h⟩ | ⟨hq, he, h⟩ <;> rw [h]
  · exact readIteration_last (s := withPbuf p s) hq hlast
  · exact readIteration_more (s := withPbuf p s) hq hmore
  · exact (readIteration_nil (s := withPbuf p s) hq).trans (if_pos he)
  · exact (readIteration_nil (s := withPbuf p s) hq).trans (if_neg (Bool.eq_false_iff.mp he))

theorem recvByte_unread {p : List Byte} {next : Byte → State → State}
    (hn : ∀ b s, PbufUnread p s (next b s) (next b (withPbuf p s))) {s : State} (hp : s.phase ≠ .recvCks) :
    PbufUnread p s (recvByte next s) (recvByte next (withPbuf p s)) := by
  rw [recvByte, recvByte, readIteration_withPbuf]
  rcases readIteration_cases s with ⟨b, l, _, _, h⟩ | ⟨b, l, _, _, h⟩ | ⟨_, _, h⟩ | ⟨_, _, h⟩ <;> rw [h]
  · cases hl : s.rdbuf ++ [b] with
    | nil => simp at hl
    | cons a r => exact hn a { s with rxq := l, rdbuf := a :: r }
  · exact .inr ⟨rfl, rfl, hp⟩
  · exact finishRecv_unread ..
  · exact .inr ⟨rfl, rfl, hp⟩

theorem recvBlock_unread (p : List Byte) (c : Bool) {s : State} (hp : s.phase ≠ .recvCks) :
    PbufUnread p s (recvBlock c s) (recvBlock c (withPbuf p s)) := by
  rw [recvBlock, recvBlock, readIteration_withPbuf]
  rcases readIteration_cases s with ⟨b, l, _, _, h⟩ | ⟨b, l, _, _, h⟩ | ⟨_, _, h⟩ | ⟨_, _, h⟩ <;> rw [h]
  · exact .inl (recvParamsRead_withPbuf c _ p { s with rxq := l, rdbuf := s.rdbuf ++ [b] })
  · exact .inr ⟨rfl, rfl, hp⟩
  · exact finishRecv_unread ..
  · exact .inr ⟨rfl, rfl, hp⟩

theorem recvIteration_unread (p : List Byte) (c : Bool) (len : Count) {s : State} (hp : s.phase ≠ .recvCks) :
    PbufUnread p s (recvIteration c len s) (recvIteration c len (withPbuf p s)) := by
  have hsame : (withPbuf p s).phase = s.phase := rfl
  rw [recvIteration, recvIteration, hsame]
  cases hphase : s.phase
  case recvHdr => exact recvByte_unread (recvHeaderRead_unread p) hp
  case recvCmd => exact recvByte_unread (recvCommandRead_unread p c len) hp
  case recvPar => exact recvBlock_unread p c hp
  case recvCks => exact absurd hphase hp
  all_goals exact .inr ⟨rfl, rfl, hp⟩

/-! ### PBUF in the other meanings -/

theorem sendStart_withPbuf (p : List Byte) (c : Bool) (cmd : Byte) (l : List Byte) (s : State) :
    sendStart c cmd l (withPbuf p s) = withPbuf p (sendStart c cmd l s) := by
  simp only [sendStart, apply_ite (withPbuf p)]
  rfl

theorem rawdatStart_withPbuf (p : List Byte) (d : List Byte) (s : State) :
    rawdatStart d (withPbuf p s) = withPbuf p (rawdatStart d s) := by
  simp only [rawdatStart, apply_ite (withPbuf p)]
  rfl

theorem syncStart_withPbuf (p : List Byte) (s : State) : syncStart (withPbuf p s) = withPbuf p (syncStart s) := by
  simp only [syncStart, apply_ite (withPbuf p)]
  rfl

theorem syncDiscard_withPbuf (p : List Byte) (s : State) :
    syncDiscard (withPbuf p s) = withPbuf p (syncDiscard s) := by
  cases hq : s.rxq with
  | nil => rw [syncDiscard_nil hq, syncDiscard_nil (s := withPbuf p s) hq]
  | cons b l =>
    rw [syncDiscard_cons hq, syncDiscard_cons (s := withPbuf p s) hq]
    rfl

theorem syncIteration_withPbuf (p : List Byte) (timeout : Word) (s : State) :
    syncIteration timeout (withPbuf p s) = withPbuf p (syncIteration timeout s) := by
  simp only [syncIteration, apply_ite (withPbuf p), syncDiscard_withPbuf]
  rfl

/-- No command but RECV reads PBUF. -/
theorem exec_withPbuf {i : Instr} (hi : ∀ c len timeout, i ≠ .recv c len timeout) (p : List Byte) (s : State) :
    exec i (withPbuf p s) = mapNext (withPbuf p) (exec i s) := by
  cases i with
  | send c cmd l =>
    simp only [exec, execSend, apply_ite (mapNext (withPbuf p)), sendStart_withPbuf]
    rfl
  | rawhc cmd =>
    simp only [exec, execRawhc, apply_ite (mapNext (withPbuf p))]
    rfl
  | rawdat d =>
    simp only [exec, execRawdat, apply_ite (mapNext (withPbuf p)), rawdatStart_withPbuf]
    rfl
  | rawck =>
    simp only [exec, execRawck, apply_ite (mapNext (withPbuf p))]
    rfl
  | sync timeout =>
    simp only [exec, execSync, apply_ite (mapNext (withPbuf p)), syncStart_withPbuf, syncIteration_withPbuf]
    rfl
  | recv c len timeout => exact absurd rfl (hi c len timeout)
  | cksum l =>
    simp only [exec, execCksum, apply_ite (mapNext (withPbuf p))]
    rfl

/-- No command but RECV writes PBUF or enters a phase of RECV. -/
theorem exec_pbuf_of_not_recv {i : Instr} (hi : ∀ c len timeout, i ≠ .recv c len timeout) {s t : State}
    (h : exec i s = .next t) : t.pbuf = s.pbuf ∧ t.phase.isRecv = false := by
  cases exec_outcome h with
  | framer h =>
    cases h with
    | starts q l r hp hrecv ht => subst ht; exact ⟨rfl, hrecv⟩
    | accepted a b n hp ha ht => subst ht; exact ⟨rfl, rfl⟩
  | scans q e d b r l hrecv ht => subst ht; exact ⟨rfl, hrecv⟩
  | recvStarts c len timeout heq => exact absurd heq (hi c len timeout)
  | receives c len timeout heq => exact absurd heq (hi c len timeout)

theorem exec_unread {i : Instr} {s t : State} (p : List Byte) (hp : s.phase ≠ .recvCks) (h : exec i s = .next t) :
    ∃ t', exec i (withPbuf p s) = .next t' ∧ PbufUnread p s t t' := by
  by_cases hi : ∃ c len timeout, i = .recv c len timeout
  · obtain ⟨c, len, timeout, rfl⟩ := hi
    rcases execRecv_next h with ⟨hidle, rfl⟩ | ⟨hrecv, rfl⟩
    · refine ⟨_, exec_of_idle_recv (s := withPbuf p s) hidle c len timeout, .inr ?_⟩
      cases timeout <;> exact ⟨rfl, rfl, by simp [recvStart]⟩
    · exact ⟨_, exec_of_isRecv_recv (s := withPbuf p s) hrecv c len timeout, recvIteration_unread p c len hp⟩
  · have hi (c len timeout) : i ≠ .recv c len timeout := fun heq => hi ⟨c, len, timeout, heq⟩
    obtain ⟨hpbuf, hphase⟩ := exec_pbuf_of_not_recv hi h
    obtain ⟨_, _, _, hcks⟩ := (isRecv_eq_false_iff t.phase).mp hphase
    exact ⟨withPbuf p t, by rw [exec_withPbuf hi, h, mapNext], .inr ⟨rfl, hpbuf, hcks⟩⟩

/-! ### PBUF over the step of each agent -/

theorem stepCore_of_no_command {s : State} (h : s.rst = true ∨ s.phase.isRxWait = false ∨ s.current = none) :
    stepCore s = .next s := by
  rcases h with hr | hp | hc
  · exact stepCore_of_rst hr
  · exact stepCore_of_not_rxWait hp
  · simp [stepCore, hc]

theorem stepTxAccept_of_no_command {s : State}
    (h : s.rst = true ∨ s.phase.isWrite = false ∨ s.txb = [] ∨ s.current = none) : stepTxAccept s = .next s := by
  rcases h with hr | hp | ht | hc
  · exact stepTxAccept_of_rst hr
  · exact stepTxAccept_of_not_write hp
  · exact if_neg (by simp [ht])
  · simp [stepTxAccept, hc]

theorem stepOffer_of_not_enabled {x : Transaction} {s : State} (h : offerEnabled x s = false) :
    stepOffer x s = .next s := if_neg (by simp [h])

theorem takeResponse_withPbuf (p : List Byte) (s : State) :
    takeResponse (withPbuf p s) = withPbuf p (takeResponse s) := by
  cases hr : s.rsp with
  | none => rw [takeResponse_none hr, takeResponse_none (s := withPbuf p s) hr]
  | some r =>
    rw [takeResponse_some hr, takeResponse_some (s := withPbuf p s) hr]
    rfl

theorem stepHostTake_takes {s : State} (h : s.rst = false ∧ s.phase = .resp) : stepHostTake s = takeResponse s :=
  if_pos h

theorem stepHostTake_of_not_enabled {s : State} (h : ¬(s.rst = false ∧ s.phase = .resp)) : stepHostTake s = s :=
  if_neg h

theorem stepTick_counts {s : State} (hr : s.rst = false) : stepTick s = { s with elapsed := tickCount s.elapsed } :=
  if_neg (by simp [hr])

theorem perform_releaseReset {s : State} (hr : s.rst = true) : perform .releaseReset s = .next (releaseReset s) := by
  rw [perform, if_pos hr]

theorem perform_releaseReset_of_not_rst {s : State} (hr : s.rst = false) : perform .releaseReset s = .next s := by
  rw [perform, if_neg (by simp [hr])]

theorem stepHostTake_unread (p : List Byte) {s : State} (hp : s.phase ≠ .recvCks) :
    PbufUnread p s (stepHostTake s) (stepHostTake (withPbuf p s)) := by
  by_cases hg : s.rst = false ∧ s.phase = .resp
  · rw [stepHostTake_takes hg, stepHostTake_takes (s := withPbuf p s) hg, takeResponse_withPbuf]
    cases hr : s.rsp with
    | none => rw [takeResponse_none hr]; exact .inr ⟨rfl, rfl, hp⟩
    | some r => rw [takeResponse_some hr]; exact .inr ⟨rfl, rfl, by simp⟩
  · rw [stepHostTake_of_not_enabled hg, stepHostTake_of_not_enabled (s := withPbuf p s) hg]
    exact .inr ⟨rfl, rfl, hp⟩

theorem stepRxArrive_unread (p : List Byte) (b : Byte) (lose : Bool) {s : State} (hp : s.phase ≠ .recvCks) :
    PbufUnread p s (stepRxArrive b lose s) (stepRxArrive b lose (withPbuf p s)) := by
  by_cases hdrop : lose = true ∧ s.rxcap = some s.rxq.length
  · rw [stepRxArrive_drops hdrop, stepRxArrive_drops (s := withPbuf p s) hdrop]
    exact .inr ⟨rfl, rfl, hp⟩
  · rw [stepRxArrive_appends hdrop, stepRxArrive_appends (s := withPbuf p s) hdrop]
    exact .inr ⟨rfl, rfl, hp⟩

theorem stepTick_unread (p : List Byte) {s : State} (hp : s.phase ≠ .recvCks) :
    PbufUnread p s (stepTick s) (stepTick (withPbuf p s)) := by
  cases hr : s.rst with
  | true =>
    rw [stepTick_of_rst hr, stepTick_of_rst (s := withPbuf p s) hr]
    exact .inr ⟨rfl, rfl, hp⟩
  | false =>
    rw [stepTick_counts hr, stepTick_counts (s := withPbuf p s) hr]
    exact .inr ⟨rfl, rfl, hp⟩

theorem stepOffer_unread {x : Transaction} {s t : State} (p : List Byte) (hp : s.phase ≠ .recvCks)
    (h : stepOffer x s = .next t) : ∃ t', stepOffer x (withPbuf p s) = .next t' ∧ PbufUnread p s t t' := by
  rcases stepOffer_next h with ⟨rfl, hno⟩ | ⟨hr, hidle, hw, ⟨e, he, rfl⟩ | ⟨i, hi, hexec⟩⟩
  · exact ⟨_, stepOffer_of_not_enabled hno, .inr ⟨rfl, rfl, hp⟩⟩
  · have haccepted := stepOffer_accepted (s := withPbuf p s) hr hidle hw
    exact ⟨_, haccepted.trans (acceptCommand_error he), .inr ⟨rfl, rfl, by simp⟩⟩
  · have haccepted := stepOffer_accepted (s := withPbuf p s) hr hidle hw
    obtain ⟨t', ht', hunread⟩ := exec_unread (s := latch x s) p hp hexec
    exact ⟨t', haccepted.trans ((acceptCommand_ok (s := withPbuf p s) hi).trans ht'), hunread⟩

theorem perform_unread {e : Event} {s t : State} (p : List Byte) (hp : s.phase ≠ .recvCks) (h : perform e s = .next t) :
    ∃ t', perform e (withPbuf p s) = .next t' ∧ PbufUnread p s t t' := by
  cases e with
  | core =>
    rcases stepCore_next h with ⟨rfl, hno⟩ | ⟨i, hr, hwait, hc, hexec⟩
    · exact ⟨_, stepCore_of_no_command hno, .inr ⟨rfl, rfl, hp⟩⟩
    · obtain ⟨t', ht', hunread⟩ := exec_unread p hp hexec
      exact ⟨t', (stepCore_current (s := withPbuf p s) hr hwait hc).trans ht', hunread⟩
  | txAccept =>
    rcases stepTxAccept_next h with ⟨rfl, hno⟩ | ⟨i, hr, hwrite, htxb, hc, hexec⟩
    · exact ⟨_, stepTxAccept_of_no_command hno, .inr ⟨rfl, rfl, hp⟩⟩
    · obtain ⟨t', ht', hunread⟩ := exec_unread p hp hexec
      exact ⟨t', (stepTxAccept_current (s := withPbuf p s) hr hwrite htxb hc).trans ht', hunread⟩
  | offer x => exact stepOffer_unread p hp h
  | hostTake => cases h; exact ⟨_, rfl, stepHostTake_unread p hp⟩
  | rxArrive b lose => cases h; exact ⟨_, rfl, stepRxArrive_unread p b lose hp⟩
  | tick => cases h; exact ⟨_, rfl, stepTick_unread p hp⟩
  | setInputs c => cases h; exact ⟨_, rfl, .inr ⟨rfl, rfl, hp⟩⟩
  | assertReset => cases h; exact ⟨_, rfl, .inl rfl⟩
  | releaseReset =>
    cases hr : s.rst with
    | true =>
      cases (perform_releaseReset hr).symm.trans h
      exact ⟨_, perform_releaseReset (s := withPbuf p s) hr, .inl rfl⟩
    | false =>
      cases (perform_releaseReset_of_not_rst hr).symm.trans h
      exact ⟨_, perform_releaseReset_of_not_rst (s := withPbuf p s) hr, .inr ⟨rfl, rfl, hp⟩⟩

/-! ### OPL in IDLE (R34) -/

/-- The state with another OPL. -/
def withOpl (o : Opl) (s : State) : State := { s with opl := o }

/-- From `s` in IDLE an agent's step leads to `t`, and from `s` with OPL `o` to `t'`: then OPL was written, or the
core is still in IDLE. -/
def OplUnread (o : Opl) (s t t' : State) : Prop :=
  t' = t ∨ (t' = withOpl o t ∧ t.opl = s.opl ∧ t.phase = .idle)

/-- The acceptance latches OPL before anything reads it. -/
theorem acceptCommand_withOpl (x : Transaction) (o : Opl) (s : State) :
    acceptCommand x (withOpl o s) = acceptCommand x s := rfl

theorem stepOffer_oplUnread {x : Transaction} {s t : State} (o : Opl) (hp : s.phase = .idle)
    (h : stepOffer x s = .next t) : ∃ t', stepOffer x (withOpl o s) = .next t' ∧ OplUnread o s t t' := by
  cases henabled : offerEnabled x s with
  | false =>
    cases (stepOffer_of_not_enabled henabled).symm.trans h
    exact ⟨_, stepOffer_of_not_enabled henabled, .inr ⟨rfl, rfl, hp⟩⟩
  | true =>
    have haccepted : stepOffer x s = acceptCommand x s := if_pos henabled
    have haccepted' : stepOffer x (withOpl o s) = acceptCommand x (withOpl o s) := if_pos henabled
    exact ⟨t, by rw [haccepted', acceptCommand_withOpl, ← haccepted, h], .inl rfl⟩

theorem stepRxArrive_oplUnread (o : Opl) (b : Byte) (lose : Bool) {s : State} (hp : s.phase = .idle) :
    OplUnread o s (stepRxArrive b lose s) (stepRxArrive b lose (withOpl o s)) := by
  by_cases hdrop : lose = true ∧ s.rxcap = some s.rxq.length
  · rw [stepRxArrive_drops hdrop, stepRxArrive_drops (s := withOpl o s) hdrop]
    exact .inr ⟨rfl, rfl, hp⟩
  · rw [stepRxArrive_appends hdrop, stepRxArrive_appends (s := withOpl o s) hdrop]
    exact .inr ⟨rfl, rfl, hp⟩

theorem stepTick_oplUnread (o : Opl) {s : State} (hp : s.phase = .idle) :
    OplUnread o s (stepTick s) (stepTick (withOpl o s)) := by
  cases hr : s.rst with
  | true =>
    rw [stepTick_of_rst hr, stepTick_of_rst (s := withOpl o s) hr]
    exact .inr ⟨rfl, rfl, hp⟩
  | false =>
    rw [stepTick_counts hr, stepTick_counts (s := withOpl o s) hr]
    exact .inr ⟨rfl, rfl, hp⟩

theorem perform_oplUnread {e : Event} {s t : State} (o : Opl) (hp : s.phase = .idle) (h : perform e s = .next t) :
    ∃ t', perform e (withOpl o s) = .next t' ∧ OplUnread o s t t' := by
  have hwait : s.phase.isRxWait = false := by rw [hp]; rfl
  have hwrite : s.phase.isWrite = false := by rw [hp]; rfl
  cases e with
  | core =>
    cases (stepCore_of_not_rxWait hwait).symm.trans h
    exact ⟨_, stepCore_of_not_rxWait (s := withOpl o s) hwait, .inr ⟨rfl, rfl, hp⟩⟩
  | txAccept =>
    cases (stepTxAccept_of_not_write hwrite).symm.trans h
    exact ⟨_, stepTxAccept_of_not_write (s := withOpl o s) hwrite, .inr ⟨rfl, rfl, hp⟩⟩
  | offer x => exact stepOffer_oplUnread o hp h
  | hostTake =>
    have hresp : s.phase ≠ .resp := by simp [hp]
    cases h
    refine ⟨_, rfl, .inr ?_⟩
    rw [stepHostTake_of_not_resp hresp, stepHostTake_of_not_resp (s := withOpl o s) hresp]
    exact ⟨rfl, rfl, hp⟩
  | rxArrive b lose => cases h; exact ⟨_, rfl, stepRxArrive_oplUnread o b lose hp⟩
  | tick => cases h; exact ⟨_, rfl, stepTick_oplUnread o hp⟩
  | setInputs c => cases h; exact ⟨_, rfl, .inr ⟨rfl, rfl, hp⟩⟩
  | assertReset => cases h; exact ⟨_, rfl, .inl rfl⟩
  | releaseReset =>
    cases hr : s.rst with
    | true =>
      cases (perform_releaseReset hr).symm.trans h
      exact ⟨_, perform_releaseReset (s := withOpl o s) hr, .inl rfl⟩
    | false =>
      cases (perform_releaseReset_of_not_rst hr).symm.trans h
      exact ⟨_, perform_releaseReset_of_not_rst (s := withOpl o s) hr, .inr ⟨rfl, rfl, hp⟩⟩

/-- Settles O60: a step out of IDLE writes OPL before it reads it, and what it does with PBUF it does in every phase but
RECV_CKS. -/
theorem oplAndPbufAreNotReadInIdle : Obligations.OplAndPbufAreNotReadInIdle := by
  refine ⟨fun s t o p hp h => ?idle, fun s t p hp h => ?pbuf⟩
  case idle =>
    have hcks : s.phase ≠ .recvCks := by simp [hp]
    obtain ⟨t₁, h₁, hpbuf⟩ := perform_unread (s := { s with sched := (nextEvent s).2 }) p hcks h
    obtain ⟨t', h', hopl⟩ := perform_oplUnread (s := withPbuf p { s with sched := (nextEvent s).2 }) o hp h₁
    refine ⟨t', h', ?_⟩
    rcases hopl with rfl | ⟨rfl, hsame, hidle⟩ <;> rcases hpbuf with rfl | ⟨rfl, hold, _⟩
    · exact ⟨rfl, fun _ => rfl, .inl rfl, .inl rfl⟩
    · exact ⟨rfl, fun _ => rfl, .inl rfl, .inr ⟨hold, rfl⟩⟩
    · exact ⟨rfl, fun hne => absurd hidle hne, .inr ⟨hsame, rfl⟩, .inl rfl⟩
    · exact ⟨rfl, fun hne => absurd hidle hne, .inr ⟨hsame, rfl⟩, .inr ⟨hold, rfl⟩⟩
  case pbuf => exact perform_unread (s := { s with sched := (nextEvent s).2 }) p hp h

end Sys2Proof.Machine
